-- ==== Sys2Proof/Word.lean ====
section
/-! DEFINITION. The register width of the Morton core (00_scope.md rule R6: XLEN = 64) and the narrowing of an exact
natural number into a register. -/

namespace Sys2Proof

/-- The contents of one register: `XLEN = 64` unsigned bits (00_scope.md rules R6 and R7). -/
abbrev Word := BitVec 64

/-- The low 64 bits of an exact result, as a rule's `x[RESn] <- v[63:0]` places them (00_scope.md rule R8). -/
abbrev Word.ofExact (v : Nat) : Word := BitVec.ofNat 64 v

end Sys2Proof
end

