-- ==== Sys2Proof/Syntax.lean ====
section
/-! DEFINITION. The twelve commands, the fields of a command word, the registers by name, and what the outside world does
at the core's port: accesses and reset. -/

namespace Sys2Proof

/-- The twelve commands of 30_encoding.md rule R65. A command has no operand fields: what it reads and writes is a fixed
set of registers (rules R60 and R62). -/
inductive Instr where
  /-- `part1by1`, 40_swar_spread.md rule R81. -/
  | spread1
  /-- `part1by2`, 40_swar_spread.md rule R82. -/
  | spread2
  /-- `part1by3`, 40_swar_spread.md rule R83. -/
  | spread3
  /-- `unpart1by1`, 41_swar_gather.md rule R101. -/
  | gather1
  /-- `unpart1by2`, 41_swar_gather.md rule R102. -/
  | gather2
  /-- `unpart1by3`, 41_swar_gather.md rule R103. -/
  | gather3
  /-- `interleave2`, 42_morton_encode.md rule R121. -/
  | enc2
  /-- `interleave3`, 42_morton_encode.md rule R123. -/
  | enc3
  /-- `interleave4`, 42_morton_encode.md rule R124. -/
  | enc4
  /-- `deinterleave2`, 43_morton_decode.md rule R141. -/
  | dec2
  /-- `deinterleave3`, 43_morton_decode.md rule R142. -/
  | dec3
  /-- `deinterleave4`, 43_morton_decode.md rule R143. -/
  | dec4
  deriving DecidableEq, Repr

/-- The family a command word's CLASS field selects (30_encoding.md rule R63). -/
inductive CmdClass where
  | spread
  | gather
  | encode
  | decode
  deriving DecidableEq, Repr

/-- The fields of a command word (30_encoding.md rule R61). -/
structure CommandFields where
  /-- `RSVD`, bits 63:8. -/
  rsvd : BitVec 56
  /-- `PFX`, bits 7:6. -/
  pfx : BitVec 2
  /-- `CLASS`, bits 5:4: all four values name a family. -/
  cls : CmdClass
  /-- `PARAM`, bits 3:0: K for spread and gather, the arity D for encode and decode. -/
  param : BitVec 4
  deriving DecidableEq, Repr

/-- The eleven registers of 10_state.md rule R20. -/
inductive Reg where
  | opa | opb | opc | opd
  | res0 | res1 | res2 | res3
  | cmd | status | ctrl
  deriving DecidableEq, Repr

/-- What an access asks of the core. -/
inductive Direction where
  | read
  /-- A write, with the data on the bus: bit `j` of it is bit `j` of the register (20_memory.md rule R43). -/
  | write (data : Word)
  deriving DecidableEq, Repr

/-- One host access at the core's port (20_memory.md rules R40 and R42). Its form is DEDUCED, safe (log entry 4). -/
structure Access where
  /-- The byte offset in the window, `0x00` to `0x7F`. -/
  offset : BitVec 7
  /-- How many bytes the access covers. -/
  bytes : Nat
  /-- Whether it comes as a burst. -/
  burst : Bool
  direction : Direction
  deriving DecidableEq, Repr

/-- What reaches the core from outside. -/
inductive Event where
  /-- A host access reaches the port (20_memory.md rule R48). -/
  | access (a : Access)
  /-- Reset is asserted and released; the accesses under way while it is asserted are abandoned
  (70_reset_and_hazards.md rules R180 and R181). One event: DEDUCED, unsafe (log entry 5). -/
  | reset (abandoned : List Access)
  deriving DecidableEq, Repr

/-- What the port answers to an access. -/
inductive Response where
  /-- The normal response to a write. -/
  | normal
  /-- The normal response to a read, with the register's value. -/
  | data (value : Word)
  /-- The bus error of 20_memory.md rule R42. A refused read returns no data. -/
  | busError
  deriving DecidableEq, Repr

end Sys2Proof
end

