-- ==== Sys2Proof/WellFormed.lean ====
section
/-! DEFINITION. Which command-word fields are legal (30_encoding.md rules R61, R64 and R66). -/

namespace Sys2Proof

/-- `RSVD` must be zero (30_encoding.md rule R61). -/
def CommandFields.rsvdLegal (f : CommandFields) : Bool := f.rsvd == 0#56

/-- `PFX` must be `00` (30_encoding.md rule R61). -/
def CommandFields.pfxLegal (f : CommandFields) : Bool := f.pfx == 0#2

/-- `PARAM` is 1 to 3 for spread and gather, 2 to 4 for encode and decode (30_encoding.md rule R64). -/
def CommandFields.paramLegal (f : CommandFields) : Bool :=
  match f.cls with
  | .spread | .gather => 1 ≤ f.param.toNat && f.param.toNat ≤ 3
  | .encode | .decode => 2 ≤ f.param.toNat && f.param.toNat ≤ 4

/-- The fields of a legal command word. -/
def CommandFields.wellFormed (f : CommandFields) : Bool := f.rsvdLegal && f.pfxLegal && f.paramLegal

/-- Every instruction term is well formed: a command has no operand, no immediate and no size that could be out of range
(30_encoding.md rules R60 and R62), so the checks above, on the fields of a word, are the only ones there are. -/
def Instr.wellFormed (_ : Instr) : Bool := true

end Sys2Proof
end

