-- ==== Sys2Proof/Decode.lean ====
section
/-! DEFINITION. Decoding a command word, total and rejecting by name, and the encoder (30_encoding.md rules R60 to R67). -/

namespace Sys2Proof

/-- The family of a CLASS field (30_encoding.md rule R61). -/
def CmdClass.ofBits (b : BitVec 2) : CmdClass :=
  match b.toNat with
  | 0 => .spread
  | 1 => .gather
  | 2 => .encode
  | _ => .decode

/-- The CLASS field of a family (30_encoding.md rule R61). -/
def CmdClass.bits : CmdClass → BitVec 2
  | .spread => 0b00#2
  | .gather => 0b01#2
  | .encode => 0b10#2
  | .decode => 0b11#2

/-- The fields of the command word `w` (30_encoding.md rule R61). -/
def fieldsOf (w : Word) : CommandFields where
  rsvd := w.extractLsb' 8 56
  pfx := w.extractLsb' 6 2
  cls := CmdClass.ofBits (w.extractLsb' 4 2)
  param := w.extractLsb' 0 4

/-- The word with these fields: `RSVD : PFX : CLASS : PARAM` (30_encoding.md rule R61). -/
def CommandFields.word (f : CommandFields) : Word :=
  f.rsvd ++ f.pfx ++ f.cls.bits ++ f.param

/-- Why a command word is illegal (30_encoding.md rule R66). The reason is the decoder's own: the machine records only
that the word is illegal (60_exceptions.md rule R162). DESIGN CHOICE, safe (log entry 12). -/
inductive IllegalWord where
  /-- `RSVD != 0`. -/
  | reservedBits
  /-- `PFX != 00`. -/
  | opcodePfx
  /-- `PARAM` outside its legal set. -/
  | parameter
  deriving DecidableEq, Repr

/-- The command whose fields these are, or why there is none (30_encoding.md rules R64 to R67). -/
def decodeFields (f : CommandFields) : Except IllegalWord Instr :=
  if f.rsvd != 0#56 then .error .reservedBits
  else if f.pfx != 0#2 then .error .opcodePfx
  else
    match f.cls, f.param.toNat with
    | .spread, 1 => .ok .spread1
    | .spread, 2 => .ok .spread2
    | .spread, 3 => .ok .spread3
    | .gather, 1 => .ok .gather1
    | .gather, 2 => .ok .gather2
    | .gather, 3 => .ok .gather3
    | .encode, 2 => .ok .enc2
    | .encode, 3 => .ok .enc3
    | .encode, 4 => .ok .enc4
    | .decode, 2 => .ok .dec2
    | .decode, 3 => .ok .dec3
    | .decode, 4 => .ok .dec4
    | _, _ => .error .parameter

/-- `decode(w)` of 30_encoding.md rule R67: it reads all 64 bits of `w` and nothing else. -/
def decode (w : Word) : Except IllegalWord Instr := decodeFields (fieldsOf w)

/-- The fields of each command's word (30_encoding.md rule R65, columns CLASS and PARAM). -/
def encodeFields : Instr → CommandFields
  | .spread1 => ⟨0#56, 0#2, .spread, 1#4⟩
  | .spread2 => ⟨0#56, 0#2, .spread, 2#4⟩
  | .spread3 => ⟨0#56, 0#2, .spread, 3#4⟩
  | .gather1 => ⟨0#56, 0#2, .gather, 1#4⟩
  | .gather2 => ⟨0#56, 0#2, .gather, 2#4⟩
  | .gather3 => ⟨0#56, 0#2, .gather, 3#4⟩
  | .enc2 => ⟨0#56, 0#2, .encode, 2#4⟩
  | .enc3 => ⟨0#56, 0#2, .encode, 3#4⟩
  | .enc4 => ⟨0#56, 0#2, .encode, 4#4⟩
  | .dec2 => ⟨0#56, 0#2, .decode, 2#4⟩
  | .dec3 => ⟨0#56, 0#2, .decode, 3#4⟩
  | .dec4 => ⟨0#56, 0#2, .decode, 4#4⟩

/-- The command word of a command (30_encoding.md rule R65). -/
def encode (i : Instr) : Word := (encodeFields i).word

/-- A row of the opcode table as a command word: `nbits` bits of `w`, the bits above them zero. -/
def tableWord (nbits w : Nat) : Word := Word.ofExact (w % 2 ^ nbits)

/-- The command the decoder reads from an opcode-table word. A command is 64 bits (30_encoding.md rule R60), so a longer
row is none of this machine's. -/
def decodeTableWord (nbits w : Nat) : Option Instr :=
  if nbits ≤ 64 then
    match decode (tableWord nbits w) with
    | .ok i => some i
    | .error _ => none
  else none

end Sys2Proof
end

