-- ==== Sys2Proof/Config.lean ====
section
/-! DEFINITION. The parameters the spec leaves OPEN (00_scope.md rule R6), as constants with no value that a proof could
see. The parameters it fixes (XLEN, the W and G widths, CHUNK, WC2, WCODE2) are numbers in the rules that use them. Leaving
out cycle counts is DEDUCED, unsafe (log entry 7). -/

namespace Sys2Proof.Config

/-- Which of the 128-byte slots of the host's address map holds the window (20_memory.md rule R40, 93 U3). -/
opaque mortonSlot : Nat

/-- `MORTON_BASE`, the base address of the register window: any multiple of 128 (20_memory.md rule R40). A
natural number: DEDUCED, safe (log entry 6). -/
def mortonBase : Nat := 128 * mortonSlot

/-- `CMD_LATENCY`: the bus cycles that a write of this command word may hold the bus, any natural number
(70_reset_and_hazards.md rule R185, 93 U1). No definition of the machine reads it. -/
opaque cmdLatency : Word → Nat

/-- The bus cycles of any other access at this window offset, any natural number (70_reset_and_hazards.md rule R185,
93 U2). No definition of the machine reads it. -/
opaque otherLatency : BitVec 7 → Nat

/-- `RESET_SYNC`: whether reset is synchronous to the bus clock (70_reset_and_hazards.md rule R181, 93 U4). No definition
of the machine reads it. -/
opaque resetSync : Bool

end Sys2Proof.Config
end

