-- ==== Sys2Proof/Machine/State.lean ====
section
/-! DEFINITION. The state of the core (10_state.md rule R34) with the two ends of its port, the reasons a step could stop,
and the state after reset (70_reset_and_hazards.md rule R180). -/

namespace Sys2Proof.Machine

/-- The thirteen pieces of state of 10_state.md rule R34, and the model's own view of the port: the events still to come
and the answer to the last access. -/
structure State where
  /-- `OPA`, operand 0 (10_state.md rule R21). -/
  opa : Word
  /-- `OPB`, operand 1 (10_state.md rule R21). -/
  opb : Word
  /-- `OPC`, operand 2 (10_state.md rule R21). -/
  opc : Word
  /-- `OPD`, operand 3 (10_state.md rule R21). -/
  opd : Word
  /-- `RES0`, output 0 of the last successful command (10_state.md rule R22). -/
  res0 : Word
  /-- `RES1`, output 1 (10_state.md rule R22). -/
  res1 : Word
  /-- `RES2`, output 2 (10_state.md rule R22). -/
  res2 : Word
  /-- `RES3`, output 3 (10_state.md rule R22). -/
  res3 : Word
  /-- `CMD`, the command word last written, reserved bits included (10_state.md rule R23). -/
  cmd : Word
  /-- `STATUS.DONE` (10_state.md rule R25). -/
  done : Bool
  /-- `STATUS.ERR` (10_state.md rule R26). -/
  err : Bool
  /-- `STATUS.ERRCODE` (10_state.md rule R27). -/
  errcode : BitVec 4
  /-- `CTRL.STRICT` (10_state.md rule R28). -/
  strict : Bool
  /-- What has not yet reached the core, in port order (20_memory.md rule R48). The model's own field,
  safe (DESIGN CHOICE, log entry 1). -/
  port : List Event
  /-- What the port answered to the last access. The model's own field, safe (DESIGN CHOICE, log entry 3). -/
  response : Option Response
  deriving DecidableEq, Repr

/-- Reasons for the machine to stop. There is none: the core's errors are recorded in STATUS and it goes on
(60_exceptions.md rule R160), a refused access is a response on the bus (rule R168), and no state is stuck
(93_implementation_defined.md). DEDUCED, safe (log entry 11). -/
inductive Fault where
  deriving DecidableEq, Repr

/-- Reasons to give an instruction no meaning. -/
inductive Refusal where
  /-- Raised by an arm of exec for an instruction that has no meaning in the model yet; safe, since nothing follows from
  it. No arm raises it: every command of the table has its meaning. -/
  | notModelled (mnemonic : String)
  deriving DecidableEq, Repr

/-- The state after reset: every register zero (70_reset_and_hazards.md rule R180), nothing at the port. -/
def State.reset : State where
  opa := 0#64
  opb := 0#64
  opc := 0#64
  opd := 0#64
  res0 := 0#64
  res1 := 0#64
  res2 := 0#64
  res3 := 0#64
  cmd := 0#64
  done := false
  err := false
  errcode := 0#4
  strict := false
  port := []
  response := none

end Sys2Proof.Machine
end

