-- ==== Sys2Proof/Machine/Flags.lean ====
section
/-! DEFINITION. STATUS and CTRL: the errors a command can end with, the fields they leave, and the words a host reads
(10_state.md rules R24 to R29). -/

namespace Sys2Proof.Machine

/-- The errors a command can end with (10_state.md rule R27). -/
inductive CommandError where
  /-- The command word is none of the twelve (60_exceptions.md rule R162). -/
  | illegalCmd
  /-- In strict mode, an operand has a set bit outside the command's domain (60_exceptions.md rule R163). -/
  | domain
  deriving DecidableEq, Repr

/-- `code(E)`: the ERRCODE of an error (10_state.md rule R27, 60_exceptions.md rule R161). -/
def CommandError.code : CommandError → BitVec 4
  | .illegalCmd => 1#4
  | .domain => 2#4

/-- The STATUS word: ERRCODE in bits 7:4, ERR in bit 1, DONE in bit 0, zero elsewhere (10_state.md rule R24). -/
def State.statusWord (s : State) : Word :=
  0#56 ++ s.errcode ++ 0#2 ++ BitVec.ofBool s.err ++ BitVec.ofBool s.done

/-- The CTRL word: STRICT in bit 0, zero elsewhere (10_state.md rule R28). -/
def State.ctrlWord (s : State) : Word := (BitVec.ofBool s.strict).setWidth 64

/-- STRICT as a write of `v` to CTRL leaves it: bit 0 (10_state.md rule R28). -/
def strictOf (v : Word) : Bool := v.getLsbD 0

end Sys2Proof.Machine
end

