-- ==== Sys2Proof/Machine/Placement.lean ====
section
/-! DEFINITION. The placement functions every command is defined through (00_scope.md rules R9 and R11 to R15), on exact
natural numbers: a shift never loses a bit (rule R8), and a command narrows its result once, at the end. -/

namespace Sys2Proof.Machine

/-- `spread(n, K, W)`: bit `i` of `n` goes to bit `i*(K+1)`, for `i < W`; nothing else is set (00_scope.md rule R11). -/
def spread (n K : Nat) : Nat → Nat
  | 0 => 0
  | w + 1 => spread n K w + (n.testBit w).toNat * 2 ^ (w * (K + 1))

/-- `gather(n, K, W)`: bit `i*(K+1)` of `n` goes to bit `i`, for `i < W`; nothing else is set (00_scope.md rule R12). -/
def gather (n K : Nat) : Nat → Nat
  | 0 => 0
  | w + 1 => gather n K w + (n.testBit (w * (K + 1))).toNat * 2 ^ w

/-- `LANE0(K, W)`, the mask of the lane-0 positions (00_scope.md rule R13). -/
def lane0 (K W : Nat) : Nat := spread (2 ^ W - 1) K W

/-- The lanes of the coordinates `vs` from lane `d` on: coordinate `d` spread with `K` zero bits and shifted into lane
`d`, OR-ed together (00_scope.md rule R15). -/
def lanesFrom (K W d : Nat) : List Nat → Nat
  | [] => 0
  | v :: vs => (spread v K W <<< d) ||| lanesFrom K W (d + 1) vs

/-- `interleave_D(v_0, ..., v_{D-1})` with `W` bits per dimension, `D` the length of the list (00_scope.md rule R15). -/
def interleave (W : Nat) (vs : List Nat) : Nat := lanesFrom (vs.length - 1) W 0 vs

/-- Coordinate `d` of a code of arity `D` with `W` bits per dimension: the gatherer applied to `n >> d`
(43_morton_decode.md rule R140). -/
def coordinate (D W n d : Nat) : Nat := gather (n >>> d) (D - 1) W

/-- `bit_length(v)` (00_scope.md rule R9): 0 for 0, else `1 + floor(log2 v)`. -/
def bitLength (v : Nat) : Nat := if v = 0 then 0 else 1 + Nat.log2 v

/-- `ceil(p / q)` (00_scope.md rule R8). -/
def ceilDiv (p q : Nat) : Nat := (p + q - 1) / q

end Sys2Proof.Machine
end

