-- ==== Sys2Proof/Machine/Operands.lean ====
section
/-! DEFINITION. Registers by name and by window offset, and the operands of the commands (30_encoding.md rule R62,
20_memory.md rule R41). -/

namespace Sys2Proof.Machine

/-- `x[r]`, the 64-bit value of register `r` (00_scope.md rule R10). -/
def State.reg (s : State) : Reg → Word
  | .opa => s.opa
  | .opb => s.opb
  | .opc => s.opc
  | .opd => s.opd
  | .res0 => s.res0
  | .res1 => s.res1
  | .res2 => s.res2
  | .res3 => s.res3
  | .cmd => s.cmd
  | .status => s.statusWord
  | .ctrl => s.ctrlWord

/-- The window offset of a register (20_memory.md rule R41). -/
def regOffset : Reg → BitVec 7
  | .opa => 0x00#7
  | .opb => 0x08#7
  | .opc => 0x10#7
  | .opd => 0x18#7
  | .res0 => 0x20#7
  | .res1 => 0x28#7
  | .res2 => 0x30#7
  | .res3 => 0x38#7
  | .cmd => 0x40#7
  | .status => 0x48#7
  | .ctrl => 0x50#7

/-- The register at a window offset; none at the reserved offsets `0x58` to `0x78` (20_memory.md rule R41) and at an
offset that is no multiple of 8. -/
def regAt (offset : BitVec 7) : Option Reg :=
  match offset.toNat with
  | 0x00 => some .opa
  | 0x08 => some .opb
  | 0x10 => some .opc
  | 0x18 => some .opd
  | 0x20 => some .res0
  | 0x28 => some .res1
  | 0x30 => some .res2
  | 0x38 => some .res3
  | 0x40 => some .cmd
  | 0x48 => some .status
  | 0x50 => some .ctrl
  | _ => none

/-- The operand registers a command reads, in the order of the source function's arguments (30_encoding.md rule R62).
DEC2's one argument is `OPB : OPA`. -/
def operandRegs : Instr → List Reg
  | .spread1 | .spread2 | .spread3 => [.opa]
  | .gather1 | .gather2 | .gather3 => [.opa]
  | .enc2 => [.opa, .opb]
  | .enc3 => [.opa, .opb, .opc]
  | .enc4 => [.opa, .opb, .opc, .opd]
  | .dec2 => [.opa, .opb]
  | .dec3 | .dec4 => [.opa]

/-- `x[OPB] : x[OPA]`, the 128-bit code DEC2 reads (43_morton_decode.md rule R141). -/
def State.code128 (s : State) : BitVec 128 := s.opb ++ s.opa

/-- `n[63:W]`, the bits of an operand at `W` and above. -/
def bitsAbove (n : Word) (W : Nat) : Nat := n.toNat >>> W

end Sys2Proof.Machine
end

