-- ==== Sys2Proof/Machine/Ops.lean ====
section
/-! DEFINITION. The shared operations: how a command ends (60_exceptions.md rules R161 to R166), how a host's write and
read act on a register (20_memory.md rules R44 to R46), which accesses the core accepts (rule R42), and the byte view of
the window (rule R43). -/

namespace Sys2Proof.Machine

/-- The four values a command's body returns (40_swar_spread.md, the template). -/
structure Results where
  r0 : Word
  r1 : Word
  r2 : Word
  r3 : Word
  deriving DecidableEq, Repr

/-- The results of a command that defines only output 0 (10_state.md rule R22). -/
def Results.one (r : Word) : Results := ⟨r, 0#64, 0#64, 0#64⟩

/-- What a command's body gives: its results, or the error it raises. -/
abbrev Body := Except CommandError Results

/-- `raise E` (60_exceptions.md rules R161 and R165): DONE and ERR are set, ERRCODE names the error, and nothing else
changes. This is all of the core's exception entry: no register saves anything, no mode changes and nothing transfers
control (rule R160), so there is no return operation beside it either (rule R167). -/
def State.raiseError (e : CommandError) (s : State) : State :=
  { s with done := true, err := true, errcode := e.code }

/-- The end of a successful command (60_exceptions.md rule R166): all four result registers are written, and STATUS
becomes `0x1`. -/
def State.succeed (r : Results) (s : State) : State :=
  { s with
    res0 := r.r0, res1 := r.r1, res2 := r.r2, res3 := r.r3
    done := true, err := false, errcode := 0#4 }

/-- The end of a command whose body gave `b` (60_exceptions.md rule R161). -/
def State.complete (b : Body) (s : State) : State :=
  match b with
  | .ok r => s.succeed r
  | .error e => s.raiseError e

/-- A body that checks its operands in strict mode (60_exceptions.md rule R163): DOMAIN if STRICT is set and `outside`
says that an operand has a bit the command discards, else the results. -/
def strictBody (s : State) (outside : Bool) (r : Results) : Body :=
  if s.strict && outside then .error .domain else .ok r

/-- The value a write of `v` to a register leaves (20_memory.md rule R46): the operand registers and CMD take all of it,
CTRL takes its bit 0, and a read-only register takes nothing (rule R45). -/
def State.store (r : Reg) (v : Word) (s : State) : State :=
  match r with
  | .opa => { s with opa := v }
  | .opb => { s with opb := v }
  | .opc => { s with opc := v }
  | .opd => { s with opd := v }
  | .cmd => { s with cmd := v }
  | .ctrl => { s with strict := strictOf v }
  | .res0 | .res1 | .res2 | .res3 | .status => s

/-- `read_reg(off)`: the register's value, zero at a reserved offset (20_memory.md rules R44 and R46). -/
def State.readReg (s : State) (offset : BitVec 7) : Word :=
  match regAt offset with
  | some r => s.reg r
  | none => 0#64

/-- Whether the core accepts an access: one transfer of 8 bytes at a multiple of 8 (20_memory.md rule R42). -/
def accepted (a : Access) : Bool :=
  a.bytes == 8 && a.offset.toNat % 8 == 0 && !a.burst

/-- The port answers `r`. -/
def State.answer (r : Response) (s : State) : State := { s with response := some r }

/-- The byte at a window offset: byte `b` of the register at offset `8*r` is its bits `8*b+7` to `8*b` (20_memory.md rule
R43); the bytes of a reserved slot are zero (rule R44). -/
def State.windowByte (s : State) (offset : BitVec 7) : BitVec 8 :=
  (s.readReg (offset &&& 0x78#7)).extractLsb' (8 * (offset.toNat % 8)) 8

/-- The core after reset, with what is still to come at the port (70_reset_and_hazards.md rules R180 and R181): every
register takes its reset value, and an abandoned access gets no response. -/
def resetWith (rest : List Event) : State := { State.reset with port := rest }

end Sys2Proof.Machine
end

