-- ==== Sys2Proof/Machine/Deinterleave.lean ====
section
/-! DEFINITION. The decoder commands DEC2, DEC3 and DEC4 (43_morton_decode.md rules R140 to R143). -/

namespace Sys2Proof.Machine

/-- DEC2's chunk loop (43_morton_decode.md rule R141): `iterations` more chunks, the next one number `i`; `(cx, cy)` are
the accumulators. -/
def dec2Loop : (iterations i n cx cy : Nat) → Nat × Nat
  | 0, _, _, cx, cy => (cx, cy)
  | k + 1, i, n, cx, cy =>
    dec2Loop k (i + 1) (n >>> 32)
      (cx ||| (gather n 1 16 <<< (16 * i))) (cy ||| (gather (n >>> 1) 1 16 <<< (16 * i)))

/-- DEC2's loop bound (43_morton_decode.md rule R141). -/
def dec2Iterations (n : Nat) : Nat := ceilDiv (bitLength n) 32

/-- The two coordinates of a 128-bit code (43_morton_decode.md rule R141). -/
def dec2Coordinates (n : Nat) : Nat × Nat := dec2Loop (dec2Iterations n) 0 n 0 0

/-- The body of DEC2: `(cx, cy, 0, 0)`; every code is in the domain. -/
def dec2Body (s : State) : Body :=
  let c := dec2Coordinates s.code128.toNat
  .ok ⟨Word.ofExact c.1, Word.ofExact c.2, 0#64, 0#64⟩

/-- The body of DEC3 (43_morton_decode.md rule R142): bits 30 and up of the code are outside the domain. -/
def dec3Body (s : State) : Body :=
  let n := s.opa.toNat
  strictBody s (bitsAbove s.opa 30 != 0)
    ⟨Word.ofExact (coordinate 3 10 n 0), Word.ofExact (coordinate 3 10 n 1), Word.ofExact (coordinate 3 10 n 2), 0#64⟩

/-- The body of DEC4 (43_morton_decode.md rule R143); every code is in the domain. -/
def dec4Body (s : State) : Body :=
  let n := s.opa.toNat
  .ok ⟨Word.ofExact (coordinate 4 16 n 0), Word.ofExact (coordinate 4 16 n 1),
    Word.ofExact (coordinate 4 16 n 2), Word.ofExact (coordinate 4 16 n 3)⟩

/-- DEC2 (43_morton_decode.md rule R141). -/
def execDec2 (s : State) : Host.Outcome State Fault Refusal := .next (s.complete (dec2Body s))

/-- DEC3 (43_morton_decode.md rule R142). -/
def execDec3 (s : State) : Host.Outcome State Fault Refusal := .next (s.complete (dec3Body s))

/-- DEC4 (43_morton_decode.md rule R143). -/
def execDec4 (s : State) : Host.Outcome State Fault Refusal := .next (s.complete (dec4Body s))

end Sys2Proof.Machine
end

