-- ==== Sys2Proof/Machine/Gather.lean ====
section
/-! DEFINITION. The gatherer commands GATHER1, GATHER2 and GATHER3 (41_swar_gather.md rules R100 to R103). -/

namespace Sys2Proof.Machine

/-- The body of a gatherer (41_swar_gather.md rule R100): `gather(OPA, K, W)`, and the bits of OPA that are not in
`LANE0(K, W)` are outside its domain. -/
def gatherBody (K W : Nat) (s : State) : Body :=
  strictBody s (s.opa &&& ~~~ Word.ofExact (lane0 K W) != 0#64) (.one (Word.ofExact (gather s.opa.toNat K W)))

/-- GATHER1 (41_swar_gather.md rule R101): bits 0, 2, ..., 30. -/
def execGather1 (s : State) : Host.Outcome State Fault Refusal := .next (s.complete (gatherBody 1 16 s))

/-- GATHER2 (41_swar_gather.md rule R102): bits 0, 3, ..., 27; bit 30 is not among them. -/
def execGather2 (s : State) : Host.Outcome State Fault Refusal := .next (s.complete (gatherBody 2 10 s))

/-- GATHER3 (41_swar_gather.md rule R103): bits 0, 4, ..., 60. -/
def execGather3 (s : State) : Host.Outcome State Fault Refusal := .next (s.complete (gatherBody 3 16 s))

end Sys2Proof.Machine
end

