-- ==== Sys2Proof/Machine/Interleave.lean ====
section
/-! DEFINITION. The encoder commands ENC2, ENC3 and ENC4 (42_morton_encode.md rules R120 to R125). -/

namespace Sys2Proof.Machine

/-- The 32-bit chunk of two coordinates' low 16 bits (42_morton_encode.md rule R121). -/
def enc2Chunk (cx cy : Nat) : Nat := spread (cx % 2 ^ 16) 1 16 ||| (spread (cy % 2 ^ 16) 1 16 <<< 1)

/-- ENC2's chunk loop (42_morton_encode.md rule R121): `iterations` more chunks, the next one number `i`. -/
def enc2Loop : (iterations i cx cy code : Nat) → Nat
  | 0, _, _, _, code => code
  | k + 1, i, cx, cy, code => enc2Loop k (i + 1) (cx >>> 16) (cy >>> 16) (code ||| (enc2Chunk cx cy <<< (32 * i)))

/-- ENC2's loop bound (42_morton_encode.md rule R121). -/
def enc2Iterations (cx cy : Nat) : Nat := ceilDiv (max (bitLength cx) (bitLength cy)) 16

/-- The 128-bit code of two 64-bit coordinates (42_morton_encode.md rule R121). -/
def enc2Code (cx cy : Nat) : Nat := enc2Loop (enc2Iterations cx cy) 0 cx cy 0

/-- The body of ENC2: `(code[63:0], code[127:64], 0, 0)`; every operand is in the domain. -/
def enc2Body (s : State) : Body :=
  let code := enc2Code s.opa.toNat s.opb.toNat
  .ok ⟨Word.ofExact code, Word.ofExact (code >>> 64), 0#64, 0#64⟩

/-- The body of ENC3 and ENC4 (42_morton_encode.md rules R123 and R124): the coordinates in `vs`, `W` bits of each, one
lane for each; a bit at `W` or above in any of them is outside the domain. -/
def encLanesBody (W : Nat) (vs : List Word) (s : State) : Body :=
  strictBody s (vs.any fun v => bitsAbove v W != 0) (.one (Word.ofExact (interleave W (vs.map BitVec.toNat))))

/-- ENC2 (42_morton_encode.md rule R121). -/
def execEnc2 (s : State) : Host.Outcome State Fault Refusal := .next (s.complete (enc2Body s))

/-- ENC3 (42_morton_encode.md rule R123): three 10-bit coordinates. -/
def execEnc3 (s : State) : Host.Outcome State Fault Refusal :=
  .next (s.complete (encLanesBody 10 [s.opa, s.opb, s.opc] s))

/-- ENC4 (42_morton_encode.md rule R124): four 16-bit coordinates. -/
def execEnc4 (s : State) : Host.Outcome State Fault Refusal :=
  .next (s.complete (encLanesBody 16 [s.opa, s.opb, s.opc, s.opd] s))

end Sys2Proof.Machine
end

