-- ==== Sys2Proof/Machine/Spread.lean ====
section
/-! DEFINITION. The spreader commands SPREAD1, SPREAD2 and SPREAD3 (40_swar_spread.md rules R80 to R83). -/

namespace Sys2Proof.Machine

/-- The body of a spreader (40_swar_spread.md rule R80): `spread(OPA, K, W)`, and the bits of OPA at `W` and above are
outside its domain. -/
def spreadBody (K W : Nat) (s : State) : Body :=
  strictBody s (bitsAbove s.opa W != 0) (.one (Word.ofExact (spread s.opa.toNat K W)))

/-- SPREAD1 (40_swar_spread.md rule R81): 16 bits, one zero bit between each pair. -/
def execSpread1 (s : State) : Host.Outcome State Fault Refusal := .next (s.complete (spreadBody 1 16 s))

/-- SPREAD2 (40_swar_spread.md rule R82): 10 bits, two zero bits between each pair. -/
def execSpread2 (s : State) : Host.Outcome State Fault Refusal := .next (s.complete (spreadBody 2 10 s))

/-- SPREAD3 (40_swar_spread.md rule R83): 16 bits, three zero bits between each pair. -/
def execSpread3 (s : State) : Host.Outcome State Fault Refusal := .next (s.complete (spreadBody 3 16 s))

end Sys2Proof.Machine
end

