-- ==== Sys2Proof/Machine/Dispatch.lean ====
section
/-! DEFINITION. The meaning of each command, one arm for each constructor of Instr (60_exceptions.md rule R161: Body_d). -/

namespace Sys2Proof.Machine

def exec (i : Instr) (s : State) : Host.Outcome State Fault Refusal :=
  match i with
  | .spread1 => Sys2Proof.Machine.execSpread1 s
  | .spread2 => Sys2Proof.Machine.execSpread2 s
  | .spread3 => Sys2Proof.Machine.execSpread3 s
  | .gather1 => Sys2Proof.Machine.execGather1 s
  | .gather2 => Sys2Proof.Machine.execGather2 s
  | .gather3 => Sys2Proof.Machine.execGather3 s
  | .enc2 => Sys2Proof.Machine.execEnc2 s
  | .enc3 => Sys2Proof.Machine.execEnc3 s
  | .enc4 => Sys2Proof.Machine.execEnc4 s
  | .dec2 => Sys2Proof.Machine.execDec2 s
  | .dec3 => Sys2Proof.Machine.execDec3 s
  | .dec4 => Sys2Proof.Machine.execDec4 s

end Sys2Proof.Machine
end

