-- ==== Sys2Proof/Machine/Port.lean ====
section
/-! DEFINITION. The port: executing a command word (60_exceptions.md rule R161) and performing one host access
(20_memory.md rules R42 to R48) or a reset (70_reset_and_hazards.md rules R180 and R181). -/

namespace Sys2Proof.Machine

/-- `ExecuteCommand(w)` (60_exceptions.md rule R161): an illegal word raises ILLEGAL_CMD before any operand is read
(rules R162 and R164), a legal one runs its command. -/
def executeCommand (w : Word) (s : State) : Host.Outcome State Fault Refusal :=
  match decode w with
  | .ok i => exec i s
  | .error _ => .next (s.raiseError .illegalCmd)

/-- `write_reg(off, v)` (20_memory.md rules R44 to R46): a write to CMD stores the word and executes it in the same step;
one to another register stores; one to a reserved offset is ignored. -/
def writeReg (offset : BitVec 7) (v : Word) (s : State) : Host.Outcome State Fault Refusal :=
  match regAt offset with
  | some .cmd => executeCommand v (s.store .cmd v)
  | some r => .next (s.store r v)
  | none => .next s

/-- `MemRead` and `MemWrite` (20_memory.md rule R42): a refused access gets a bus error and changes no register; an
accepted read answers the register's value; an accepted write gets a normal response and does what `write_reg` does. -/
def performAccess (a : Access) (s : State) : Host.Outcome State Fault Refusal :=
  if accepted a then
    match a.direction with
    | .read => .next (s.answer (.data (s.readReg a.offset)))
    | .write v => writeReg a.offset v (s.answer .normal)
  else .next (s.answer .busError)

/-- One event from outside, the rest of the port's list already in `s` (20_memory.md rule R48,
70_reset_and_hazards.md rules R180 and R181). -/
def performEvent (e : Event) (s : State) : Host.Outcome State Fault Refusal :=
  match e with
  | .access a => performAccess a s
  | .reset _ => .next (resetWith s.port)

/-- The access that reads the register `r` (20_memory.md rule R41). -/
def readAccess (r : Reg) : Access := ⟨regOffset r, 8, false, .read⟩

/-- The access that writes `v` to the register `r` (20_memory.md rule R41). -/
def writeAccess (r : Reg) (v : Word) : Access := ⟨regOffset r, 8, false, .write v⟩

end Sys2Proof.Machine
end

