-- ==== Sys2Proof/Machine/Step.lean ====
section
/-! DEFINITION. One step of the machine: the next event at the port (20_memory.md rule R48). -/

namespace Sys2Proof.Machine

/-- The core performs the events at its port one at a time, in order (20_memory.md rule R48). With nothing at the port it
does nothing: only a host's access or a reset changes a register (10_state.md rule R20).
That an idle core still makes a step is DEDUCED, safe (log entry 2); that an access is one step and always completes is
DEDUCED, unsafe (log entry 7). -/
def step (s : State) : Host.Outcome State Fault Refusal :=
  match s.port with
  | [] => .next s
  | e :: rest => performEvent e { s with port := rest }

/-- The state in which the host's next access writes this opcode-table word to CMD: that is how the core comes to run a
command (60_exceptions.md rule R161). From reset nothing runs until the host's first access (DESIGN CHOICE, safe, log
entry 9). -/
def State.withFetchWord (s : State) (nbits w : Nat) : State :=
  { s with port := .access (writeAccess .cmd (tableWord nbits w)) :: s.port }

end Sys2Proof.Machine
end

