-- ==== Sys2Proof/Machine/Platform.lean ====
section
/-! DEFINITION. Instances on a platform: a window at a base address (20_memory.md rule R40), host transactions by address
(30_encoding.md rule R68), and instances that share nothing (20_memory.md rule R53). -/

namespace Sys2Proof.Machine

/-- The size of the register window in bytes (20_memory.md rule R40). -/
def windowSize : Nat := 128

/-- A host transaction on the platform's bus, by address: `MemRead` or `MemWrite` (30_encoding.md rule R68). -/
structure Transaction where
  address : Nat
  bytes : Nat
  burst : Bool
  direction : Direction
  deriving DecidableEq, Repr

/-- The transaction that makes this access at a window based at `base` (30_encoding.md rule R68). -/
def transactionAt (base : Nat) (a : Access) : Transaction :=
  ⟨base + a.offset.toNat, a.bytes, a.burst, a.direction⟩

/-- The offset of an address in the window at `base`; none if the address is not in it (20_memory.md rule R40). -/
def windowOffset (base address : Nat) : Option (BitVec 7) :=
  if base ≤ address ∧ address < base + windowSize then some (BitVec.ofNat 7 (address - base)) else none

/-- One instance of the core and the base of its window, its `MORTON_BASE`. -/
structure Placed where
  base : Nat
  core : State
  deriving DecidableEq, Repr

/-- The base must be a multiple of 128 (20_memory.md rule R40). -/
def Placed.aligned (p : Placed) : Bool := p.base % windowSize == 0

/-- An instance at the base of Config. -/
def Placed.atMortonBase (s : State) : Placed := ⟨Config.mortonBase, s⟩

/-- A transaction reaches an instance's port when its address is in the instance's window, and only then (20_memory.md
rules R40 and R53). DEDUCED, unsafe (log entry 8). -/
def Placed.receive (t : Transaction) (p : Placed) : Placed :=
  match windowOffset p.base t.address with
  | some o =>
    { p with core := { p.core with port := p.core.port ++ [.access ⟨o, t.bytes, t.burst, t.direction⟩] } }
  | none => p

/-- A host issues a transaction on the platform's bus. -/
def issue (t : Transaction) (ps : List Placed) : List Placed := ps.map (Placed.receive t)

/-- Instance number `k` makes a step, and the others do nothing (20_memory.md rule R53). With no such instance nothing
happens. -/
def stepInstance (k : Nat) (ps : List Placed) : Host.Outcome (List Placed) Fault Refusal :=
  match ps[k]? with
  | none => .next ps
  | some p =>
    match step p.core with
    | .next c => .next (ps.set k { p with core := c })
    | .fault r => .fault r
    | .refused r => .refused r

end Sys2Proof.Machine
end

