-- ==== Sys2Proof/Machine/Assembler.lean ====
section
/-! DEFINITION. Host programs (30_encoding.md rules R68 to R70): the lines, the accesses they stand for, and reading a line
from its text. What the rules leave open of a line's text is a DESIGN CHOICE, safe (log entry 10). -/

namespace Sys2Proof.Machine

/-- The width of an access, `WR` and `RD` with or without `.<n>` (30_encoding.md rule R68). -/
inductive Width where
  | one
  | two
  | four
  | eight
  deriving DecidableEq, Repr

/-- The byte count of a width. -/
def Width.bytes : Width → Nat
  | .one => 1
  | .two => 2
  | .four => 4
  | .eight => 8

/-- `<reg>` of a line: a register's name or a raw offset (30_encoding.md rule R68). -/
inductive Target where
  | reg (r : Reg)
  | raw (offset : BitVec 7)
  deriving DecidableEq, Repr

/-- The window offset of a target. -/
def Target.offset : Target → BitVec 7
  | .reg r => regOffset r
  | .raw o => o

/-- One line of a host program. -/
inductive Line where
  /-- `WR <reg>, <value>` and `WR.<n> <reg>, <value>` (30_encoding.md rule R68). -/
  | write (n : Width) (t : Target) (v : Word)
  /-- `RD <reg>` and `RD.<n> <reg>` (30_encoding.md rule R68). -/
  | read (n : Width) (t : Target)
  /-- `CMD <mnemonic>`, and a mnemonic with no operand list (30_encoding.md rules R69 and R70). -/
  | command (i : Instr)
  /-- `CMD <value>`, a raw word (30_encoding.md rule R69). -/
  | rawCommand (w : Word)
  /-- `STRICT ON` and `STRICT OFF` (30_encoding.md rule R70). -/
  | strict (on : Bool)
  /-- A mnemonic with its operand list (30_encoding.md rule R70). -/
  | pseudo (i : Instr) (args : List Word)
  deriving DecidableEq, Repr

/-- The accesses of `WR <reg>, <value>` for registers and values in order. -/
def operandWrites (rs : List Reg) (vs : List Word) : List Access := List.zipWith writeAccess rs vs

/-- The accesses a line stands for, with offsets relative to the window (30_encoding.md rules R68 to R70); none for an
operand list of the wrong length, which no pseudo-instruction of rule R70 has. -/
def Line.expand : Line → Option (List Access)
  | .write n t v => some [⟨t.offset, n.bytes, false, .write v⟩]
  | .read n t => some [⟨t.offset, n.bytes, false, .read⟩]
  | .command i => some [writeAccess .cmd (encode i)]
  | .rawCommand w => some [writeAccess .cmd w]
  | .strict true => some [writeAccess .ctrl 1#64]
  | .strict false => some [writeAccess .ctrl 0#64]
  | .pseudo i args =>
    if args.length = (operandRegs i).length then
      some (operandWrites (operandRegs i) args ++ [writeAccess .cmd (encode i)])
    else none

/-- The accesses of a program's lines, in order. -/
def expandAll : List Line → Option (List Access)
  | [] => some []
  | l :: ls =>
    match l.expand, expandAll ls with
    | some a, some as => some (a ++ as)
    | _, _ => none

/-- The bus transactions of a program for the window at `MORTON_BASE` (30_encoding.md rule R68). -/
def programTransactions (ls : List Line) : Option (List Transaction) :=
  (expandAll ls).map (List.map (transactionAt Config.mortonBase))

/-- Every command once, in the order of 30_encoding.md rule R65. -/
def allInstrs : List Instr :=
  [.spread1, .spread2, .spread3, .gather1, .gather2, .gather3, .enc2, .enc3, .enc4, .dec2, .dec3, .dec4]

/-- The mnemonic of a command (30_encoding.md rule R65). -/
def mnemonic : Instr → String
  | .spread1 => "SPREAD1"
  | .spread2 => "SPREAD2"
  | .spread3 => "SPREAD3"
  | .gather1 => "GATHER1"
  | .gather2 => "GATHER2"
  | .gather3 => "GATHER3"
  | .enc2 => "ENC2"
  | .enc3 => "ENC3"
  | .enc4 => "ENC4"
  | .dec2 => "DEC2"
  | .dec3 => "DEC3"
  | .dec4 => "DEC4"

/-- The software name of a command, its accepted alias (30_encoding.md rule R69). -/
def softwareName : Instr → String
  | .spread1 => "part1by1"
  | .spread2 => "part1by2"
  | .spread3 => "part1by3"
  | .gather1 => "unpart1by1"
  | .gather2 => "unpart1by2"
  | .gather3 => "unpart1by3"
  | .enc2 => "interleave2"
  | .enc3 => "interleave3"
  | .enc4 => "interleave4"
  | .dec2 => "deinterleave2"
  | .dec3 => "deinterleave3"
  | .dec4 => "deinterleave4"

/-- Two names are the same but for case: the rule says it of mnemonics (30_encoding.md rule R69), and the model reads
software names so too (DESIGN CHOICE, safe, log entry 10). -/
def sameName (a b : List Char) : Bool := a.map Char.toLower == b.map Char.toLower

/-- The command a mnemonic or an alias names (30_encoding.md rule R69), in any letter case (of an alias: log entry 10).
-/
def instrNamed (cs : List Char) : Option Instr :=
  allInstrs.find? fun i => sameName (mnemonic i).toList cs || sameName (softwareName i).toList cs

/-- Every register once, in the order of 20_memory.md rule R41. -/
def allRegs : List Reg := [.opa, .opb, .opc, .opd, .res0, .res1, .res2, .res3, .cmd, .status, .ctrl]

/-- The name of a register (20_memory.md rule R41). -/
def regName : Reg → String
  | .opa => "OPA"
  | .opb => "OPB"
  | .opc => "OPC"
  | .opd => "OPD"
  | .res0 => "RES0"
  | .res1 => "RES1"
  | .res2 => "RES2"
  | .res3 => "RES3"
  | .cmd => "CMD"
  | .status => "STATUS"
  | .ctrl => "CTRL"

/-- The register with this name. -/
def regNamed (cs : List Char) : Option Reg := allRegs.find? fun r => (regName r).toList == cs

/-- A character that separates the words of a line: a space or a tab (DESIGN CHOICE, safe, log entry 10). -/
def isBlank (c : Char) : Bool := c == ' ' || c == '\t'

/-- A text without the blanks at its two ends. -/
def trim (cs : List Char) : List Char := ((cs.dropWhile isBlank).reverse.dropWhile isBlank).reverse

/-- The parts of a text between the characters `c`. -/
def splitAtChar (c : Char) : List Char → List (List Char)
  | [] => [[]]
  | x :: xs =>
    if x == c then [] :: splitAtChar c xs
    else
      match splitAtChar c xs with
      | h :: t => (x :: h) :: t
      | [] => [[x]]

/-- The value of a digit in a base up to 16. -/
def digitValue (base : Nat) (c : Char) : Option Nat :=
  let n := c.toNat
  let d := if 48 ≤ n ∧ n ≤ 57 then n - 48 else if 97 ≤ n ∧ n ≤ 102 then n - 87 else if 65 ≤ n ∧ n ≤ 70 then n - 55 else 16
  if d < base then some d else none

/-- The number that digits in a base spell after the value `acc`. -/
def digitsValue (base acc : Nat) : List Char → Option Nat
  | [] => some acc
  | c :: cs =>
    match digitValue base c with
    | some d => digitsValue base (acc * base + d) cs
    | none => none

/-- An unsigned literal: hexadecimal `0x...` with `_` separators, or decimal (30_encoding.md rule R68). The rule does
not say where a `_` may stand: after `0x` every one is dropped, a leading, trailing or doubled one too (DESIGN CHOICE,
safe, log entry 10). So are the lower-case `x`, hexadecimal digits of either case and leading zeros. -/
def literal (cs : List Char) : Option Nat :=
  match cs with
  | '0' :: 'x' :: hex =>
    match hex.filter (· != '_') with
    | [] => none
    | ds => digitsValue 16 0 ds
  | [] => none
  | ds => digitsValue 10 0 ds

/-- A `<value>`: a 64-bit literal (30_encoding.md rule R68). -/
def value (cs : List Char) : Option Word :=
  match literal cs with
  | some v => if v < 2 ^ 64 then some (Word.ofExact v) else none
  | none => none

/-- A `<reg>`: a register's name or `@` and an offset of the window (30_encoding.md rule R68). The rule shows `@0x58`
only: the offset is read as any literal, a decimal one such as `@88` too, and refused at 128 or more (DESIGN CHOICE,
safe, log entry 10). -/
def target (cs : List Char) : Option Target :=
  match cs with
  | '@' :: o =>
    match literal o with
    | some v => if v < windowSize then some (.raw (BitVec.ofNat 7 v)) else none
    | none => none
  | _ => (regNamed cs).map .reg

/-- The width of `WR` or `RD` with its suffix (30_encoding.md rule R68): `key` is the word without it. -/
def widthOf (key word : List Char) : Option Width :=
  if word = key then some .eight
  else if word = key ++ ['.', '1'] then some .one
  else if word = key ++ ['.', '2'] then some .two
  else if word = key ++ ['.', '4'] then some .four
  else if word = key ++ ['.', '8'] then some .eight
  else none

/-- All the values of an operand list. -/
def values : List (List Char) → Option (List Word)
  | [] => some []
  | a :: as =>
    match value a, values as with
    | some v, some vs => some (v :: vs)
    | _, _ => none

/-- The line that starts with a mnemonic or an alias (30_encoding.md rules R69 and R70). -/
def mnemonicLine (word : List Char) (args : List (List Char)) : Option Line :=
  match instrNamed word, args with
  | some i, [] => some (.command i)
  | some i, _ => (values args).map (.pseudo i)
  | none, _ => none

/-- The line with this first word and these arguments (30_encoding.md rules R68 to R70). -/
def lineOf (word : List Char) (args : List (List Char)) : Option Line :=
  match widthOf ['W', 'R'] word, widthOf ['R', 'D'] word, args with
  | some n, _, [t, v] =>
    match target t, value v with
    | some t', some v' => some (.write n t' v')
    | _, _ => none
  | _, some n, [t] => (target t).map (.read n)
  | none, none, _ =>
    if word = ['C', 'M', 'D'] then
      match args with
      | [x] =>
        match instrNamed x with
        | some i => some (.command i)
        | none => (value x).map .rawCommand
      | _ => none
    else if word = ['S', 'T', 'R', 'I', 'C', 'T'] then
      match args with
      | [['O', 'N']] => some (.strict true)
      | [['O', 'F', 'F']] => some (.strict false)
      | _ => none
    else mnemonicLine word args
  | _, _, _ => none

/-- A line of a host program from its text. What follows `;` is the response the program's writer expects, and no part of
the transaction (30_encoding.md rule R68). -/
def parseLine (text : List Char) : Option Line :=
  let code := trim (text.takeWhile (· != ';'))
  let word := code.takeWhile (!isBlank ·)
  let rest := trim (code.dropWhile (!isBlank ·))
  lineOf word (if rest = [] then [] else (splitAtChar ',' rest).map trim)

end Sys2Proof.Machine
end

