-- ==== Sys2Proof/Machine/Swar.lean ====
section
/-! DEFINITION. The SWAR realisations of the spreaders and gatherers (40_swar_spread.md rules R84 and R85,
41_swar_gather.md rule R104). They are one way a designer may build the commands, not what the machine runs: only the
results are architectural (93 U19). -/

namespace Sys2Proof.Machine

/-- The `#` of a pass: either of OR and XOR (40_swar_spread.md rule R84). -/
inductive Join where
  | or
  | xor
  deriving DecidableEq, Repr

/-- `v # u`. -/
def Join.apply : Join → Nat → Nat → Nat
  | .or, v, u => v ||| u
  | .xor, v, u => v ^^^ u

/-- One pass: a shift distance and the mask kept after it. -/
structure Pass where
  shift : Nat
  mask : Nat
  deriving DecidableEq, Repr

/-- A realisation: the first mask, then the passes in order. -/
structure Sequence where
  first : Nat
  passes : List Pass
  deriving DecidableEq, Repr

/-- `v <- (v # (v << shift)) & mask`. -/
def Pass.left (j : Join) (v : Nat) (p : Pass) : Nat := j.apply v (v <<< p.shift) &&& p.mask

/-- `v <- (v # (v >> shift)) & mask`. -/
def Pass.right (j : Join) (v : Nat) (p : Pass) : Nat := j.apply v (v >>> p.shift) &&& p.mask

/-- The value after the first `k` passes of a spreader sequence. -/
def Sequence.leftAfter (q : Sequence) (j : Join) (n k : Nat) : Nat :=
  (q.passes.take k).foldl (Pass.left j) (n &&& q.first)

/-- The value after the first `k` passes of a gatherer sequence. -/
def Sequence.rightAfter (q : Sequence) (j : Join) (n k : Nat) : Nat :=
  (q.passes.take k).foldl (Pass.right j) (n &&& q.first)

/-- The result of a spreader sequence. -/
def Sequence.runLeft (q : Sequence) (j : Join) (n : Nat) : Nat := q.leftAfter j n q.passes.length

/-- The result of a gatherer sequence. -/
def Sequence.runRight (q : Sequence) (j : Join) (n : Nat) : Nat := q.rightAfter j n q.passes.length

/-- SPREAD1's sequence (40_swar_spread.md rule R84). -/
def swarSpread1 : Sequence :=
  ⟨0xFFFF, [⟨8, 0x00FF00FF⟩, ⟨4, 0x0F0F0F0F⟩, ⟨2, 0x33333333⟩, ⟨1, 0x55555555⟩]⟩

/-- SPREAD2's sequence, the 10-bit form (40_swar_spread.md rule R84). -/
def swarSpread2 : Sequence :=
  ⟨0xFFFF, [⟨16, 0xFF0000FF⟩, ⟨8, 0x0300F00F⟩, ⟨4, 0x030C30C3⟩, ⟨2, 0x09249249⟩]⟩

/-- SPREAD3's sequence (40_swar_spread.md rule R84). -/
def swarSpread3 : Sequence :=
  ⟨0xFFFF, [⟨24, 0x000000FF000000FF⟩, ⟨12, 0x000F000F000F000F⟩, ⟨6, 0x0303030303030303⟩, ⟨3, 0x1111111111111111⟩]⟩

/-- GATHER1's sequence (41_swar_gather.md rule R104). -/
def swarGather1 : Sequence :=
  ⟨0x55555555, [⟨1, 0x33333333⟩, ⟨2, 0x0F0F0F0F⟩, ⟨4, 0x00FF00FF⟩, ⟨8, 0x0000FFFF⟩]⟩

/-- GATHER2's sequence (41_swar_gather.md rule R104). -/
def swarGather2 : Sequence :=
  ⟨0x09249249, [⟨2, 0x030C30C3⟩, ⟨4, 0x0300F00F⟩, ⟨8, 0xFF0000FF⟩, ⟨16, 0x000003FF⟩]⟩

/-- GATHER3's sequence (41_swar_gather.md rule R104). -/
def swarGather3 : Sequence :=
  ⟨0x1111111111111111, [⟨3, 0x0303030303030303⟩, ⟨6, 0x000F000F000F000F⟩, ⟨12, 0x000000FF000000FF⟩,
    ⟨24, 0x000000000000FFFF⟩]⟩

end Sys2Proof.Machine
end

