-- ==== Sys2Proof/Safety.lean ====
section
/-! DEFINITION. The terms the claims use: how a command ends, when its operands are out of its domain, what its results can
be, and the invariant of the machine. They are written from the rules, apart from the definitions the machine runs. -/

namespace Sys2Proof.Machine

/-- The command `i` COMPLETES in `s`: exec answers the next state in which RES0 to RES3 hold these values and STATUS
reads `0x1`, and everything else is as in `s` (60_exceptions.md rule R166). -/
def Succeeds (i : Instr) (s : State) (r0 r1 r2 r3 : Word) : Prop :=
  ∃ t : State, exec i s = .next t ∧
    t = { s with res0 := r0, res1 := r1, res2 := r2, res3 := r3, done := true, err := false, errcode := 0#4 } ∧
    t.statusWord = 0x1#64

/-- The command `i` ends with DOMAIN in `s`: exec answers the next state in which STATUS reads `0x23` and everything else
is as in `s` (60_exceptions.md rules R163 and R165). -/
def RaisesDomain (i : Instr) (s : State) : Prop :=
  ∃ t : State, exec i s = .next t ∧
    t = { s with done := true, err := true, errcode := 2#4 } ∧ t.statusWord = 0x23#64

/-- `r` is `n` with its bits `i < W` moved to `i*(K+1)`, and nothing else set (00_scope.md rule R11, as a relation). -/
def SpreadBits (K W : Nat) (n r : Word) : Prop :=
  (∀ i, i < W → r.getLsbD (i * (K + 1)) = n.getLsbD i) ∧
  ∀ j, (∀ i, i < W → j ≠ i * (K + 1)) → r.getLsbD j = false

/-- `r` is `n` with its bits `i*(K+1)`, `i < W`, moved to `i`, and nothing else set (00_scope.md rule R12, as a
relation). -/
def GatherBits (K W : Nat) (n r : Word) : Prop :=
  (∀ i, i < W → r.getLsbD i = n.getLsbD (i * (K + 1))) ∧ ∀ j, W ≤ j → r.getLsbD j = false

/-- `r` is bit `d + i*D` of `n` at bit `i`, for `i < W`, and nothing else set (43_morton_decode.md rule R140). -/
def CoordinateBits (D W d : Nat) (n r : Word) : Prop :=
  (∀ i, i < W → r.getLsbD i = n.getLsbD (d + i * D)) ∧ ∀ j, W ≤ j → r.getLsbD j = false

/-- When a command's operands are out of its domain: the table of 60_exceptions.md rule R163. -/
def OutOfDomain (i : Instr) (s : State) : Prop :=
  match i with
  | .spread1 => 2 ^ 16 ≤ s.opa.toNat
  | .spread2 => 2 ^ 10 ≤ s.opa.toNat
  | .spread3 => 2 ^ 16 ≤ s.opa.toNat
  | .gather1 => s.opa &&& ~~~0x0000000055555555#64 ≠ 0#64
  | .gather2 => s.opa &&& ~~~0x0000000009249249#64 ≠ 0#64
  | .gather3 => s.opa &&& ~~~0x1111111111111111#64 ≠ 0#64
  | .enc2 => False
  | .enc3 => 2 ^ 10 ≤ s.opa.toNat ∨ 2 ^ 10 ≤ s.opb.toNat ∨ 2 ^ 10 ≤ s.opc.toNat
  | .enc4 => 2 ^ 16 ≤ s.opa.toNat ∨ 2 ^ 16 ≤ s.opb.toNat ∨ 2 ^ 16 ≤ s.opc.toNat ∨ 2 ^ 16 ≤ s.opd.toNat
  | .dec2 => False
  | .dec3 => 2 ^ 30 ≤ s.opa.toNat
  | .dec4 => False

/-- The bits a command keeps of each operand register it reads, its domain (40_swar_spread.md rules R81 to R83,
41_swar_gather.md rules R101 to R103, 42_morton_encode.md rules R121 to R124 and 43_morton_decode.md rules R141 to
R143). -/
def domainMask : Instr → Word
  | .spread1 => 0xFFFF#64
  | .spread2 => 0x3FF#64
  | .spread3 => 0xFFFF#64
  | .gather1 => 0x55555555#64
  | .gather2 => 0x09249249#64
  | .gather3 => 0x1111111111111111#64
  | .enc2 => 0xFFFFFFFFFFFFFFFF#64
  | .enc3 => 0x3FF#64
  | .enc4 => 0xFFFF#64
  | .dec2 => 0xFFFFFFFFFFFFFFFF#64
  | .dec3 => 0x3FFFFFFF#64
  | .dec4 => 0xFFFFFFFFFFFFFFFF#64

/-- The state with only the bits of `m` kept in each operand register. -/
def State.maskedBy (m : Word) (s : State) : State :=
  { s with opa := s.opa &&& m, opb := s.opb &&& m, opc := s.opc &&& m, opd := s.opd &&& m }

/-- The bits a command can set in each result register (the corner cases of 40_swar_spread.md rules R81 to R83,
41_swar_gather.md rules R101 to R103, 42_morton_encode.md rules R121 to R124 and 43_morton_decode.md rules R141 to
R143). -/
def resultMask : Instr → Results
  | .spread1 => ⟨0x55555555#64, 0#64, 0#64, 0#64⟩
  | .spread2 => ⟨0x09249249#64, 0#64, 0#64, 0#64⟩
  | .spread3 => ⟨0x1111111111111111#64, 0#64, 0#64, 0#64⟩
  | .gather1 => ⟨0xFFFF#64, 0#64, 0#64, 0#64⟩
  | .gather2 => ⟨0x3FF#64, 0#64, 0#64, 0#64⟩
  | .gather3 => ⟨0xFFFF#64, 0#64, 0#64, 0#64⟩
  | .enc2 => ⟨0xFFFFFFFFFFFFFFFF#64, 0xFFFFFFFFFFFFFFFF#64, 0#64, 0#64⟩
  | .enc3 => ⟨0x3FFFFFFF#64, 0#64, 0#64, 0#64⟩
  | .enc4 => ⟨0xFFFFFFFFFFFFFFFF#64, 0#64, 0#64, 0#64⟩
  | .dec2 => ⟨0xFFFFFFFFFFFFFFFF#64, 0xFFFFFFFFFFFFFFFF#64, 0#64, 0#64⟩
  | .dec3 => ⟨0x3FF#64, 0x3FF#64, 0x3FF#64, 0#64⟩
  | .dec4 => ⟨0xFFFF#64, 0xFFFF#64, 0xFFFF#64, 0xFFFF#64⟩

/-- The result registers hold nothing that the command `i` could not have left in them. -/
def ResultsFit (i : Instr) (s : State) : Prop :=
  s.res0 &&& ~~~(resultMask i).r0 = 0#64 ∧ s.res1 &&& ~~~(resultMask i).r1 = 0#64 ∧
  s.res2 &&& ~~~(resultMask i).r2 = 0#64 ∧ s.res3 &&& ~~~(resultMask i).r3 = 0#64

/-- Before the first command since reset, STATUS, CMD and the result registers read as zero (10_state.md rules R23 to
R25). -/
def Untouched (s : State) : Prop :=
  s.err = false ∧ s.errcode = 0#4 ∧ s.cmd = 0#64 ∧ s.res0 = 0#64 ∧ s.res1 = 0#64 ∧ s.res2 = 0#64 ∧ s.res3 = 0#64

/-- Since the first command, STATUS reports the outcome of the word that stands in CMD (10_state.md rules R23 to R27): an
illegal word leaves ILLEGAL_CMD; a legal one leaves success, with results its command can give, or DOMAIN, where some
operands are out of its domain. -/
def StatusTellsOfCmd (s : State) : Prop :=
  match decode s.cmd with
  | .error _ => s.err = true ∧ s.errcode = 1#4
  | .ok i =>
    (s.err = false ∧ s.errcode = 0#4 ∧ ResultsFit i s) ∨
    (s.err = true ∧ s.errcode = 2#4 ∧ ∃ u : State, OutOfDomain i u)

/-- The invariant of the machine: STATUS agrees with CMD and the result registers, and the result registers hold nothing
that no command could have left. -/
def State.Inv (s : State) : Prop :=
  (s.done = false → Untouched s) ∧ (s.done = true → StatusTellsOfCmd s) ∧ ∃ i, ResultsFit i s

/-- The number of set bits of a word (40_swar_spread.md rule R86). -/
def popcount (w : Word) : Nat := (List.range 64).countP fun i => w.getLsbD i

end Sys2Proof.Machine
end

