-- ==== Sys2Proof/Certificates/Slice0/Obligations.lean ====
section
/-! DEFINITION. The statements for the provers. Each is made from a numbered rule of the spec, and holds of every state,
reachable or not; where a clause rests on a choice of the model's own, its docstring says so. -/

open Sys2Proof Sys2Proof.Machine

/-! ### Encoding -/

/-- Four rows of the table of 30_encoding.md rule R65, one of each family, decode to their commands. -/
def Obligations.TableWordsDecode : Prop :=
  decode 0x0000000000000002#64 = .ok .spread2 ∧ decode 0x0000000000000011#64 = .ok .gather1 ∧
  decode 0x0000000000000024#64 = .ok .enc4 ∧ decode 0x0000000000000033#64 = .ok .dec3

/-- 30_encoding.md rule R65: a command word selects a command exactly when all 64 bits equal its value. -/
def Obligations.CommandSelectedByExactWord : Prop :=
  ∀ w : Word,
    (decode w = .ok .spread1 ↔ w = 0x0000000000000001#64) ∧
    (decode w = .ok .spread2 ↔ w = 0x0000000000000002#64) ∧
    (decode w = .ok .spread3 ↔ w = 0x0000000000000003#64) ∧
    (decode w = .ok .gather1 ↔ w = 0x0000000000000011#64) ∧
    (decode w = .ok .gather2 ↔ w = 0x0000000000000012#64) ∧
    (decode w = .ok .gather3 ↔ w = 0x0000000000000013#64) ∧
    (decode w = .ok .enc2 ↔ w = 0x0000000000000022#64) ∧
    (decode w = .ok .enc3 ↔ w = 0x0000000000000023#64) ∧
    (decode w = .ok .enc4 ↔ w = 0x0000000000000024#64) ∧
    (decode w = .ok .dec2 ↔ w = 0x0000000000000032#64) ∧
    (decode w = .ok .dec3 ↔ w = 0x0000000000000033#64) ∧
    (decode w = .ok .dec4 ↔ w = 0x0000000000000034#64)

/-- Encoding and decoding agree, both ways, on every command and every word (30_encoding.md rules R65 and R67). -/
def Obligations.EncodeThenDecode : Prop :=
  (∀ i : Instr, i.wellFormed = true → decode (encode i) = .ok i) ∧
  ∀ (w : Word) (i : Instr), decode w = .ok i → encode i = w

/-- 30_encoding.md rule R66: every word but the twelve is illegal and ends with ILLEGAL_CMD, the twelve exclude every
word with RSVD, PFX or PARAM out of range, `0x0` among them, and 2^64 - 12 words are illegal. -/
def Obligations.EveryOtherWordIsIllegal : Prop :=
  (∀ w : Word, w ∉ ([0x01#64, 0x02#64, 0x03#64, 0x11#64, 0x12#64, 0x13#64, 0x22#64, 0x23#64, 0x24#64,
      0x32#64, 0x33#64, 0x34#64] : List Word) →
    ∀ s : State, executeCommand w s = .next { s with done := true, err := true, errcode := 1#4 }) ∧
  (∀ f : CommandFields, f.rsvd ≠ 0#56 ∨ f.pfx ≠ 0#2 ∨ f.paramLegal = false → ∀ i, decode f.word ≠ .ok i) ∧
  (∀ i, decode 0#64 ≠ .ok i) ∧
  {w : Word | ∀ i, decode w ≠ .ok i}.ncard = 2 ^ 64 - 12

/-! ### The step and the two ways a command ends -/

/-- The step that performs a write to CMD of a word that decodes to `i` is exec of `i` in the state in which CMD holds
the word, the access is taken from the port and its response is normal (20_memory.md rules R46 to R48; the port's two
fields are the model's own, log entries 1 and 3). The state made by withFetchWord is such a state. -/
def Obligations.StepRunsTheDecodedCommand : Prop :=
  (∀ (s : State) (w : Word) (i : Instr) (rest : List Event),
    s.port = .access (writeAccess .cmd w) :: rest → decode w = .ok i →
    step s = exec i { s with port := rest, response := some .normal, cmd := w }) ∧
  ∀ (s : State) (w : Word) (i : Instr), decode w = .ok i →
    step (s.withFetchWord 64 w.toNat) = exec i { s with response := some .normal, cmd := w }

/-- 60_exceptions.md rule R162: a word that is none of the twelve leaves STATUS `0x13` and no result, whatever STRICT
and the operands hold. -/
def Obligations.IllegalWordRaisesIllegalCmd : Prop :=
  ∀ (s : State) (w : Word) (rest : List Event),
    s.port = .access (writeAccess .cmd w) :: rest → (∀ i, w ≠ encode i) →
    ∃ t : State, step s = .next t ∧ t.statusWord = 0x13#64 ∧
      t = { s with port := rest, response := some .normal, cmd := w, done := true, err := true, errcode := 1#4 }

/-- The table of 60_exceptions.md rule R163, "This table collects them [derived: from" the rules of the commands: in
strict mode a command whose operands are out of its domain ends with DOMAIN; otherwise it completes, and in strict mode
with the results it has with STRICT = 0. -/
def Obligations.DomainErrorsFollowTheTable : Prop :=
  ∀ (i : Instr) (s : State),
    (s.strict = true → OutOfDomain i s → RaisesDomain i s) ∧
    (s.strict = false ∨ ¬ OutOfDomain i s → ∃ r0 r1 r2 r3, Succeeds i s r0 r1 r2 r3) ∧
    (s.strict = true → ¬ OutOfDomain i s →
      ∀ r0 r1 r2 r3, Succeeds i { s with strict := false } r0 r1 r2 r3 → Succeeds i s r0 r1 r2 r3)

/-- 10_state.md rules R26 and R27: ERR and ERRCODE are written by every command and tell its outcome, whatever they held
before; 3 to 15 are never produced. -/
def Obligations.StatusRecordsTheOutcome : Prop :=
  ∀ (w : Word) (s : State), ∃ t : State, executeCommand w s = .next t ∧
    (t.err = false ↔ t.errcode = 0#4) ∧
    (t.errcode = 1#4 ↔ ∀ i, w ≠ encode i) ∧
    (t.errcode = 2#4 ↔ ∃ i, w = encode i ∧ s.strict = true ∧ OutOfDomain i s) ∧
    t.errcode.toNat ≤ 2

/-- 10_state.md rule R24: the layout of STATUS, the three values a command can leave and when, that `0x0` does not come
back but by reset, and that a host cannot write it. -/
def Obligations.StatusLayoutAndValues : Prop :=
  (∀ s : State, s.statusWord.getLsbD 0 = s.done ∧ s.statusWord.getLsbD 1 = s.err ∧
    s.statusWord.extractLsb' 2 2 = 0#2 ∧ s.statusWord.extractLsb' 4 4 = s.errcode ∧
    s.statusWord.extractLsb' 8 56 = 0#56) ∧
  (∀ (w : Word) (s t : State), executeCommand w s = .next t →
    (t.err = false ∧ t.statusWord = 0x1#64) ∨
    ((∀ i, w ≠ encode i) ∧ t.err = true ∧ t.statusWord = 0x13#64) ∨
    ((∃ i, w = encode i ∧ s.strict = true ∧ OutOfDomain i s) ∧ t.err = true ∧ t.statusWord = 0x23#64)) ∧
  (∀ (s t : State) (a : Access) (rest : List Event), s.port = .access a :: rest → step s = .next t →
    s.statusWord ≠ 0#64 → t.statusWord ≠ 0#64) ∧
  State.reset.statusWord = 0#64 ∧
  ∀ (s : State) (v : Word) (rest : List Event), s.port = .access (writeAccess .status v) :: rest →
    step s = .next { s with port := rest, response := some .normal }

/-- 10_state.md rule R25: every command sets DONE, and only reset clears it. -/
def Obligations.DoneIsClearedByResetOnly : Prop :=
  (∀ (w : Word) (s t : State), executeCommand w s = .next t → t.done = true) ∧
  (∀ (s t : State) (a : Access) (rest : List Event), s.port = .access a :: rest → step s = .next t →
    s.done = true → t.done = true) ∧
  ∀ (s : State) (l : List Access) (rest : List Event), s.port = .reset l :: rest →
    ∃ t : State, step s = .next t ∧ t.done = false

/-- 60_exceptions.md rule R165: after a write to CMD that ends in error the state is the state before it but for CMD and
STATUS; and the results are zero as long as no command has succeeded since reset. -/
def Obligations.ErrorsArePrecise : Prop :=
  (∀ (s t : State) (w : Word) (rest : List Event), s.port = .access (writeAccess .cmd w) :: rest →
    step s = .next t → t.err = true →
    t = { s with port := rest, response := some .normal, cmd := w, done := true, err := true, errcode := t.errcode }) ∧
  ∀ (events : List Event) (n : Nat) (t : State),
    core.run n ({ State.reset with port := events } : State) = .next t →
    (∀ (k : Nat) (u : State), k ≤ n → core.run k ({ State.reset with port := events } : State) = .next u →
      u.done = false ∨ u.err = true) →
    t.res0 = 0#64 ∧ t.res1 = 0#64 ∧ t.res2 = 0#64 ∧ t.res3 = 0#64

/-- The frame of every command word (10_state.md rule R21, 60_exceptions.md rule R161): executing it writes RES0 to RES3
and STATUS, or STATUS alone. Every other register, the two ends of the port, and every byte of the window outside the
slots of RES0 to RES3 and STATUS are unchanged. -/
def Obligations.CommandFrame : Prop :=
  ∀ (w : Word) (s t : State), executeCommand w s = .next t →
    t.opa = s.opa ∧ t.opb = s.opb ∧ t.opc = s.opc ∧ t.opd = s.opd ∧ t.cmd = s.cmd ∧ t.strict = s.strict ∧
    t.port = s.port ∧ t.response = s.response ∧
    (∀ o : BitVec 7, ¬ (0x20 ≤ o.toNat ∧ o.toNat < 0x40) → ¬ (0x48 ≤ o.toNat ∧ o.toNat < 0x50) →
      t.windowByte o = s.windowByte o) ∧
    (t.err = true → ∀ o : BitVec 7, ¬ (0x48 ≤ o.toNat ∧ o.toNat < 0x50) → t.windowByte o = s.windowByte o)

/-- 10_state.md rule R22: a successful command leaves zero in every result register its rule does not define, one that
ends in error leaves all four alone, and a host's write to one is ignored. -/
def Obligations.ResultRegistersHoldTheLastSuccess : Prop :=
  (∀ (i : Instr) (s t : State), exec i s = .next t →
    (t.err = false →
      (i ∉ [Instr.enc2, Instr.dec2, Instr.dec3, Instr.dec4] → t.res1 = 0#64) ∧
      (i ∉ [Instr.dec3, Instr.dec4] → t.res2 = 0#64) ∧ (i ≠ .dec4 → t.res3 = 0#64)) ∧
    (t.err = true → t.res0 = s.res0 ∧ t.res1 = s.res1 ∧ t.res2 = s.res2 ∧ t.res3 = s.res3)) ∧
  ∀ (s : State) (r : Reg) (v : Word) (rest : List Event), r ∈ [Reg.res0, Reg.res1, Reg.res2, Reg.res3] →
    s.port = .access (writeAccess r v) :: rest →
    step s = .next { s with port := rest, response := some .normal }

/-- 00_scope.md rule R16: the outcome of a command word is fixed by the word, the operand registers its command reads
(30_encoding.md rule R62) and STRICT; no other state and no earlier command can change it. -/
def Obligations.OutcomeDependsOnOperandsOnly : Prop :=
  ∀ (w : Word) (s u t v : State), s.strict = u.strict →
    (∀ i, decode w = .ok i → ∀ r ∈ operandRegs i, s.reg r = u.reg r) →
    executeCommand w s = .next t → executeCommand w u = .next v →
    t.statusWord = v.statusWord ∧
    (t.err = false → t.res0 = v.res0 ∧ t.res1 = v.res1 ∧ t.res2 = v.res2 ∧ t.res3 = v.res3)

/-! ### The twelve commands -/

/-- 40_swar_spread.md rule R81, whole: encoding, result, errors, corner cases and example. -/
def Obligations.Spread1SpreadsSixteenBits : Prop :=
  decode 0x01#64 = .ok .spread1 ∧
  (∀ s : State, s.strict = false ∨ s.opa.toNat < 2 ^ 16 →
    ∃ r, Succeeds .spread1 s r 0#64 0#64 0#64 ∧ SpreadBits 1 16 s.opa r) ∧
  (∀ s : State, s.strict = true → 2 ^ 16 ≤ s.opa.toNat → RaisesDomain .spread1 s) ∧
  ∀ p ∈ ([(0x0#64, 0x0#64), (0xFFFF#64, 0x55555555#64), (0x1FFFF#64, 0x55555555#64),
      (0xFFFFFFFFFFFFFFFF#64, 0x55555555#64), (0x8000#64, 0x40000000#64), (0x1234#64, 0x01040510#64)] : List (Word × Word)),
    ∀ s : State, s.strict = false → s.opa = p.1 → Succeeds .spread1 s p.2 0#64 0#64 0#64

/-- 40_swar_spread.md rule R82, whole: encoding, result, errors, corner cases and example. -/
def Obligations.Spread2SpreadsTenBits : Prop :=
  decode 0x02#64 = .ok .spread2 ∧
  (∀ s : State, s.strict = false ∨ s.opa.toNat < 2 ^ 10 →
    ∃ r, Succeeds .spread2 s r 0#64 0#64 0#64 ∧ SpreadBits 2 10 s.opa r) ∧
  (∀ s : State, s.strict = true → 2 ^ 10 ≤ s.opa.toNat → RaisesDomain .spread2 s) ∧
  ∀ p ∈ ([(0x0#64, 0x0#64), (0x3FF#64, 0x09249249#64), (0xFFFF#64, 0x09249249#64), (0x3FFF#64, 0x09249249#64),
      (0xFFFFFFFFFFFFFFFF#64, 0x09249249#64), (0x400#64, 0x0#64), (0x200#64, 0x08000000#64),
      (0x155#64, 0x01041041#64)] : List (Word × Word)),
    ∀ s : State, s.strict = false → s.opa = p.1 → Succeeds .spread2 s p.2 0#64 0#64 0#64

/-- 40_swar_spread.md rule R83, whole: encoding, result, errors, corner cases and example. -/
def Obligations.Spread3SpreadsSixteenBits : Prop :=
  decode 0x03#64 = .ok .spread3 ∧
  (∀ s : State, s.strict = false ∨ s.opa.toNat < 2 ^ 16 →
    ∃ r, Succeeds .spread3 s r 0#64 0#64 0#64 ∧ SpreadBits 3 16 s.opa r) ∧
  (∀ s : State, s.strict = true → 2 ^ 16 ≤ s.opa.toNat → RaisesDomain .spread3 s) ∧
  ∀ p ∈ ([(0x0#64, 0x0#64), (0xFFFF#64, 0x1111111111111111#64), (0x10000#64, 0x0#64),
      (0x8000#64, 0x1000000000000000#64), (0xABCD#64, 0x1010101111001101#64)] : List (Word × Word)),
    ∀ s : State, s.strict = false → s.opa = p.1 → Succeeds .spread3 s p.2 0#64 0#64 0#64

/-- 41_swar_gather.md rule R101, whole: encoding, result, errors, corner cases and example. -/
def Obligations.Gather1CompactsEvenBits : Prop :=
  decode 0x11#64 = .ok .gather1 ∧
  (∀ s : State, s.strict = false ∨ s.opa &&& ~~~0x0000000055555555#64 = 0#64 →
    ∃ r, Succeeds .gather1 s r 0#64 0#64 0#64 ∧ GatherBits 1 16 s.opa r) ∧
  (∀ s : State, s.strict = true → (∃ j, (j % 2 = 1 ∨ 32 ≤ j) ∧ s.opa.getLsbD j = true) → RaisesDomain .gather1 s) ∧
  ∀ p ∈ ([(0x0#64, 0x0#64), (0x55555555#64, 0xFFFF#64), (0xAAAAAAAA#64, 0x0#64), (0xFFFFFFFF#64, 0xFFFF#64),
      (0xFFFFFFFFFFFFFFFF#64, 0xFFFF#64), (0x100000001#64, 0x1#64), (0x40000000#64, 0x8000#64),
      (0x44455051#64, 0xABCD#64)] : List (Word × Word)),
    ∀ s : State, s.strict = false → s.opa = p.1 → Succeeds .gather1 s p.2 0#64 0#64 0#64

/-- 41_swar_gather.md rule R102, whole: encoding, result, errors, corner cases and example. -/
def Obligations.Gather2CompactsEveryThirdBit : Prop :=
  decode 0x12#64 = .ok .gather2 ∧
  (∀ s : State, s.strict = false ∨ s.opa &&& ~~~0x0000000009249249#64 = 0#64 →
    ∃ r, Succeeds .gather2 s r 0#64 0#64 0#64 ∧ GatherBits 2 10 s.opa r) ∧
  (∀ s : State, s.strict = true → (∃ j, (j % 3 ≠ 0 ∨ 30 ≤ j) ∧ s.opa.getLsbD j = true) → RaisesDomain .gather2 s) ∧
  ∀ p ∈ ([(0x0#64, 0x0#64), (0x09249249#64, 0x3FF#64), (0xFFFFFFFF#64, 0x3FF#64), (0xFFFFFFFFFFFFFFFF#64, 0x3FF#64),
      (0x12492492#64, 0x0#64), (0x40000000#64, 0x0#64), (0x08000000#64, 0x200#64),
      (0x01041041#64, 0x155#64)] : List (Word × Word)),
    ∀ s : State, s.strict = false → s.opa = p.1 → Succeeds .gather2 s p.2 0#64 0#64 0#64

/-- 41_swar_gather.md rule R103, whole: encoding, result, errors, corner cases and example. -/
def Obligations.Gather3CompactsEveryFourthBit : Prop :=
  decode 0x13#64 = .ok .gather3 ∧
  (∀ s : State, s.strict = false ∨ s.opa &&& ~~~0x1111111111111111#64 = 0#64 →
    ∃ r, Succeeds .gather3 s r 0#64 0#64 0#64 ∧ GatherBits 3 16 s.opa r) ∧
  (∀ s : State, s.strict = true → (∃ j, j % 4 ≠ 0 ∧ s.opa.getLsbD j = true) → RaisesDomain .gather3 s) ∧
  ∀ p ∈ ([(0x0#64, 0x0#64), (0x1111111111111111#64, 0xFFFF#64), (0xFFFFFFFFFFFFFFFF#64, 0xFFFF#64),
      (0x2222222222222222#64, 0x0#64), (0x8888888888888888#64, 0x0#64), (0x1000000000000000#64, 0x8000#64),
      (0x1010101111001101#64, 0xABCD#64)] : List (Word × Word)),
    ∀ s : State, s.strict = false → s.opa = p.1 → Succeeds .gather3 s p.2 0#64 0#64 0#64

/-- 42_morton_encode.md rule R121, whole: encoding, the 128-bit result in both modes, no error, the loop's bound, corner
cases and example. -/
def Obligations.Enc2InterleavesTwoWords : Prop :=
  decode 0x22#64 = .ok .enc2 ∧
  (∀ s : State, ∃ r0 r1, Succeeds .enc2 s r0 r1 0#64 0#64 ∧
    (∀ i, i < 32 →
      r0.getLsbD (2 * i) = s.opa.getLsbD i ∧ r0.getLsbD (2 * i + 1) = s.opb.getLsbD i ∧
      r1.getLsbD (2 * i) = s.opa.getLsbD (i + 32) ∧ r1.getLsbD (2 * i + 1) = s.opb.getLsbD (i + 32)) ∧
    (s.opa.toNat < 2 ^ 16 → s.opb.toNat < 2 ^ 16 → r1 = 0#64)) ∧
  (∀ cx cy : Word, enc2Iterations cx.toNat cy.toNat ≤ 4) ∧
  enc2Iterations 0 0 = 0 ∧ enc2Iterations 0x10000 0 = 2 ∧
  ∀ p ∈ ([((0x0#64, 0x0#64), (0x0#64, 0x0#64)),
      ((0xFFFFFFFFFFFFFFFF#64, 0xFFFFFFFFFFFFFFFF#64), (0xFFFFFFFFFFFFFFFF#64, 0xFFFFFFFFFFFFFFFF#64)),
      ((0xFFFFFFFFFFFFFFFF#64, 0x0#64), (0x5555555555555555#64, 0x5555555555555555#64)),
      ((0x10000#64, 0x0#64), (0x100000000#64, 0x0#64)),
      ((0x0#64, 0x8000000000000000#64), (0x0#64, 0x8000000000000000#64)),
      ((4#64, 42#64), (0x898#64, 0x0#64))] : List ((Word × Word) × (Word × Word))),
    ∀ s : State, s.opa = p.1.1 → s.opb = p.1.2 → Succeeds .enc2 s p.2.1 p.2.2 0#64 0#64

/-- 42_morton_encode.md rule R123, whole: encoding, result, errors (OPD is not read), corner cases and example. -/
def Obligations.Enc3InterleavesTenBitTriples : Prop :=
  decode 0x23#64 = .ok .enc3 ∧
  (∀ s : State, s.strict = false ∨ (s.opa.toNat < 2 ^ 10 ∧ s.opb.toNat < 2 ^ 10 ∧ s.opc.toNat < 2 ^ 10) →
    ∃ r, Succeeds .enc3 s r 0#64 0#64 0#64 ∧
      (∀ i, i < 10 → r.getLsbD (3 * i) = s.opa.getLsbD i ∧ r.getLsbD (3 * i + 1) = s.opb.getLsbD i ∧
        r.getLsbD (3 * i + 2) = s.opc.getLsbD i) ∧
      ∀ j, 30 ≤ j → r.getLsbD j = false) ∧
  (∀ s : State, s.strict = true → 2 ^ 10 ≤ s.opa.toNat ∨ 2 ^ 10 ≤ s.opb.toNat ∨ 2 ^ 10 ≤ s.opc.toNat →
    RaisesDomain .enc3 s) ∧
  ∀ p ∈ ([((0x0#64, 0x0#64, 0x0#64), 0x0#64), ((0x3FF#64, 0x3FF#64, 0x3FF#64), 0x3FFFFFFF#64),
      ((0xFFFF#64, 0xFFFF#64, 0xFFFF#64), 0x3FFFFFFF#64), ((0x400#64, 0x0#64, 0x0#64), 0x0#64),
      ((0x3FF#64, 0x0#64, 0x0#64), 0x09249249#64), ((0x0#64, 0x0#64, 0x3FF#64), 0x24924924#64),
      ((1#64, 2#64, 3#64), 0x35#64), ((0x0#64, 0xFF#64, 0x0#64), 0x492492#64),
      ((0x0#64, 0xFFFF#64, 0x0#64), 0x12492492#64)] : List ((Word × Word × Word) × Word)),
    ∀ s : State, s.strict = false → s.opa = p.1.1 → s.opb = p.1.2.1 → s.opc = p.1.2.2 →
      Succeeds .enc3 s p.2 0#64 0#64 0#64

/-- 42_morton_encode.md rule R124, whole: encoding, result, errors, corner cases and example. -/
def Obligations.Enc4InterleavesSixteenBitQuads : Prop :=
  decode 0x24#64 = .ok .enc4 ∧
  (∀ s : State, s.strict = false ∨
      (s.opa.toNat < 2 ^ 16 ∧ s.opb.toNat < 2 ^ 16 ∧ s.opc.toNat < 2 ^ 16 ∧ s.opd.toNat < 2 ^ 16) →
    ∃ r, Succeeds .enc4 s r 0#64 0#64 0#64 ∧
      ∀ i, i < 16 → r.getLsbD (4 * i) = s.opa.getLsbD i ∧ r.getLsbD (4 * i + 1) = s.opb.getLsbD i ∧
        r.getLsbD (4 * i + 2) = s.opc.getLsbD i ∧ r.getLsbD (4 * i + 3) = s.opd.getLsbD i) ∧
  (∀ s : State, s.strict = true →
      2 ^ 16 ≤ s.opa.toNat ∨ 2 ^ 16 ≤ s.opb.toNat ∨ 2 ^ 16 ≤ s.opc.toNat ∨ 2 ^ 16 ≤ s.opd.toNat →
    RaisesDomain .enc4 s) ∧
  ∀ p ∈ ([((0x0#64, 0x0#64, 0x0#64, 0x0#64), 0x0#64),
      ((0xFFFF#64, 0xFFFF#64, 0xFFFF#64, 0xFFFF#64), 0xFFFFFFFFFFFFFFFF#64),
      ((0xFFFFFFFFFFFFFFFF#64, 0xFFFFFFFFFFFFFFFF#64, 0xFFFFFFFFFFFFFFFF#64, 0xFFFFFFFFFFFFFFFF#64),
        0xFFFFFFFFFFFFFFFF#64),
      ((0x10000#64, 0x0#64, 0x0#64, 0x0#64), 0x0#64), ((0x0#64, 0x0#64, 0x0#64, 0x8000#64), 0x8000000000000000#64),
      ((1#64, 2#64, 3#64, 4#64), 0x865#64), ((0x0#64, 0xFF#64, 0x0#64, 0x0#64), 0x22222222#64),
      ((0x0#64, 0xFFFF#64, 0x0#64, 0x0#64), 0x2222222222222222#64)] : List ((Word × Word × Word × Word) × Word)),
    ∀ s : State, s.strict = false → s.opa = p.1.1 → s.opb = p.1.2.1 → s.opc = p.1.2.2.1 → s.opd = p.1.2.2.2 →
      Succeeds .enc4 s p.2 0#64 0#64 0#64

/-- 43_morton_decode.md rule R141, whole: encoding, the two results in both modes, no error, the loop's bound, corner
cases (that an ENC2 result decodes back among them) and example. -/
def Obligations.Dec2SplitsA128BitCode : Prop :=
  decode 0x32#64 = .ok .dec2 ∧
  (∀ s : State, ∃ r0 r1, Succeeds .dec2 s r0 r1 0#64 0#64 ∧
    ∀ i, i < 32 →
      r0.getLsbD i = s.opa.getLsbD (2 * i) ∧ r0.getLsbD (i + 32) = s.opb.getLsbD (2 * i) ∧
      r1.getLsbD i = s.opa.getLsbD (2 * i + 1) ∧ r1.getLsbD (i + 32) = s.opb.getLsbD (2 * i + 1)) ∧
  (∀ n : BitVec 128, dec2Iterations n.toNat ≤ 4) ∧
  dec2Iterations 0 = 0 ∧ dec2Iterations 0x100000000 = 2 ∧
  (∀ s : State, ∃ r0 r1, Succeeds .enc2 s r0 r1 0#64 0#64 ∧
    ∀ u : State, u.opa = r0 → u.opb = r1 → Succeeds .dec2 u s.opa s.opb 0#64 0#64) ∧
  ∀ p ∈ ([((0x0#64, 0x0#64), (0x0#64, 0x0#64)),
      ((0xFFFFFFFFFFFFFFFF#64, 0xFFFFFFFFFFFFFFFF#64), (0xFFFFFFFFFFFFFFFF#64, 0xFFFFFFFFFFFFFFFF#64)),
      ((0x5555555555555555#64, 0x5555555555555555#64), (0xFFFFFFFFFFFFFFFF#64, 0x0#64)),
      ((0xAAAAAAAAAAAAAAAA#64, 0x0#64), (0x0#64, 0xFFFFFFFF#64)),
      ((0x0#64, 0x8000000000000000#64), (0x0#64, 0x8000000000000000#64)),
      ((0x100000000#64, 0x0#64), (0x10000#64, 0x0#64)),
      ((0x898#64, 0x0#64), (4#64, 42#64))] : List ((Word × Word) × (Word × Word))),
    ∀ s : State, s.opa = p.1.1 → s.opb = p.1.2 → Succeeds .dec2 s p.2.1 p.2.2 0#64 0#64

/-- 43_morton_decode.md rule R142, whole: encoding, results, errors, corner cases and example. -/
def Obligations.Dec3SplitsAThirtyBitCode : Prop :=
  decode 0x33#64 = .ok .dec3 ∧
  (∀ s : State, s.strict = false ∨ s.opa.toNat < 2 ^ 30 →
    ∃ r0 r1 r2, Succeeds .dec3 s r0 r1 r2 0#64 ∧
      CoordinateBits 3 10 0 s.opa r0 ∧ CoordinateBits 3 10 1 s.opa r1 ∧ CoordinateBits 3 10 2 s.opa r2) ∧
  (∀ s : State, s.strict = true → 2 ^ 30 ≤ s.opa.toNat → RaisesDomain .dec3 s) ∧
  ∀ p ∈ ([(0x0#64, (0x0#64, 0x0#64, 0x0#64)), (0x3FFFFFFF#64, (0x3FF#64, 0x3FF#64, 0x3FF#64)),
      (0xFFFFFFFFFFFFFFFF#64, (0x3FF#64, 0x3FF#64, 0x3FF#64)), (0x40000000#64, (0x0#64, 0x0#64, 0x0#64)),
      (0x12492492#64, (0x0#64, 0x3FF#64, 0x0#64)), (0x35#64, (1#64, 2#64, 3#64))] : List (Word × (Word × Word × Word))),
    ∀ s : State, s.strict = false → s.opa = p.1 → Succeeds .dec3 s p.2.1 p.2.2.1 p.2.2.2 0#64

/-- 43_morton_decode.md rule R143, whole: encoding, results in both modes, no error, corner cases and example. -/
def Obligations.Dec4SplitsASixtyFourBitCode : Prop :=
  decode 0x34#64 = .ok .dec4 ∧
  (∀ s : State, ∃ r0 r1 r2 r3, Succeeds .dec4 s r0 r1 r2 r3 ∧
    CoordinateBits 4 16 0 s.opa r0 ∧ CoordinateBits 4 16 1 s.opa r1 ∧
    CoordinateBits 4 16 2 s.opa r2 ∧ CoordinateBits 4 16 3 s.opa r3) ∧
  ∀ p ∈ ([(0x0#64, (0x0#64, 0x0#64, 0x0#64, 0x0#64)),
      (0xFFFFFFFFFFFFFFFF#64, (0xFFFF#64, 0xFFFF#64, 0xFFFF#64, 0xFFFF#64)),
      (0x2222222222222222#64, (0x0#64, 0xFFFF#64, 0x0#64, 0x0#64)),
      (0x8000000000000000#64, (0x0#64, 0x0#64, 0x0#64, 0x8000#64)),
      (0x865#64, (1#64, 2#64, 3#64, 4#64))] : List (Word × (Word × Word × Word × Word))),
    ∀ s : State, s.opa = p.1 → Succeeds .dec4 s p.2.1 p.2.2.1 p.2.2.2.1 p.2.2.2.2

/-! ### The port -/

/-- 20_memory.md rule R42 with 60_exceptions.md rule R168: an access that is not one transfer of 8 bytes at a multiple
of 8 gets a bus error and changes no register; no other access gets one. -/
def Obligations.RefusedAccessesChangeNothing : Prop :=
  (∀ (s : State) (a : Access) (rest : List Event), s.port = .access a :: rest →
    ¬ (a.bytes = 8 ∧ a.offset.toNat % 8 = 0 ∧ a.burst = false) →
    step s = .next { s with port := rest, response := some .busError }) ∧
  ∀ (s : State) (a : Access) (rest : List Event), s.port = .access a :: rest →
    a.bytes = 8 ∧ a.offset.toNat % 8 = 0 ∧ a.burst = false →
    ∃ t : State, step s = .next t ∧
      ((a.direction = .read ∧ ∃ v, t.response = some (.data v)) ∨ ((∃ v, a.direction = .write v) ∧ t.response = some .normal))

/-- 20_memory.md rule R44: a read of a reserved offset returns zero, a write to one is ignored, and neither is an error.
-/
def Obligations.ReservedOffsetsReadZero : Prop :=
  ∀ (s : State) (o : BitVec 7) (v : Word) (rest : List Event), o ∈ [0x58#7, 0x60#7, 0x68#7, 0x70#7, 0x78#7] →
    (s.port = .access ⟨o, 8, false, .read⟩ :: rest →
      step s = .next { s with port := rest, response := some (.data 0#64) }) ∧
    (s.port = .access ⟨o, 8, false, .write v⟩ :: rest →
      step s = .next { s with port := rest, response := some .normal })

/-- 20_memory.md rule R45: a write to a read-only register is ignored, with a normal response. -/
def Obligations.ReadOnlyRegistersIgnoreWrites : Prop :=
  ∀ (s : State) (o : BitVec 7) (v : Word) (rest : List Event), o ∈ [0x20#7, 0x28#7, 0x30#7, 0x38#7, 0x48#7] →
    s.port = .access ⟨o, 8, false, .write v⟩ :: rest →
    step s = .next { s with port := rest, response := some .normal }

/-- 20_memory.md rules R41 and R46: the register map and the effect of each access. A read at each offset answers the
register's value, zero at a reserved one, and changes no register, so that it answers the same whatever other reads come
between; a write to an operand register stores and does nothing else; one to CTRL stores bit 0; one to CMD stores and
executes, and a second execution gives the same again; any other write does nothing. -/
def Obligations.EffectsOfAccesses : Prop :=
  (∀ (s : State) (o : BitVec 7) (v : Word) (rest : List Event) (last : Option Response),
    (o, v) ∈ [(0x00#7, s.opa), (0x08#7, s.opb), (0x10#7, s.opc), (0x18#7, s.opd), (0x20#7, s.res0), (0x28#7, s.res1),
      (0x30#7, s.res2), (0x38#7, s.res3), (0x40#7, s.cmd), (0x48#7, s.statusWord), (0x50#7, s.ctrlWord),
      (0x58#7, 0#64), (0x60#7, 0#64), (0x68#7, 0#64), (0x70#7, 0#64), (0x78#7, 0#64)] →
    step { s with port := .access ⟨o, 8, false, .read⟩ :: rest, response := last } =
      .next { s with port := rest, response := some (.data v) }) ∧
  (∀ (s : State) (o : BitVec 7) (v : Word) (rest : List Event), s.port = .access ⟨o, 8, false, .write v⟩ :: rest →
    (o = 0x00#7 → step s = .next { s with port := rest, response := some .normal, opa := v }) ∧
    (o = 0x08#7 → step s = .next { s with port := rest, response := some .normal, opb := v }) ∧
    (o = 0x10#7 → step s = .next { s with port := rest, response := some .normal, opc := v }) ∧
    (o = 0x18#7 → step s = .next { s with port := rest, response := some .normal, opd := v }) ∧
    (o = 0x50#7 → step s = .next { s with port := rest, response := some .normal, strict := v.getLsbD 0 }) ∧
    (o = 0x40#7 → step s = executeCommand v { s with port := rest, response := some .normal, cmd := v }) ∧
    (o ∈ [0x20#7, 0x28#7, 0x30#7, 0x38#7, 0x48#7, 0x58#7, 0x60#7, 0x68#7, 0x70#7, 0x78#7] →
      step s = .next { s with port := rest, response := some .normal })) ∧
  ∀ (w : Word) (s t : State), executeCommand w s = .next t → executeCommand w t = .next t

/-- 10_state.md rule R28: CTRL holds STRICT in bit 0 and nothing else, and a write to it changes STRICT alone. With
STRICT = 0 every command completes, with the results it has on the operands masked to its domain; with STRICT = 1 it
ends with DOMAIN exactly when an operand it reads has a bit outside the domain. -/
def Obligations.CtrlSelectsMaskingOrStrictMode : Prop :=
  State.reset.ctrlWord = 0#64 ∧
  (∀ s : State, s.ctrlWord = if s.strict then 1#64 else 0#64) ∧
  (∀ (s : State) (v : Word) (rest : List Event), s.port = .access (writeAccess .ctrl v) :: rest →
    step s = .next { s with port := rest, response := some .normal, strict := v.getLsbD 0 }) ∧
  (∀ (i : Instr) (s : State), s.strict = false →
    ∃ r0 r1 r2 r3, Succeeds i s r0 r1 r2 r3 ∧ Succeeds i (s.maskedBy (domainMask i)) r0 r1 r2 r3) ∧
  ∀ (i : Instr) (s : State), s.strict = true →
    ((∃ r ∈ operandRegs i, s.reg r &&& ~~~ domainMask i ≠ 0#64) → RaisesDomain i s) ∧
    ((∀ r ∈ operandRegs i, s.reg r &&& ~~~ domainMask i = 0#64) → ∃ r0 r1 r2 r3, Succeeds i s r0 r1 r2 r3)

/-- What a host reads back after a write to the same register (10_state.md rules R21, R22, R23, R24 and R28): all of an
operand register and of CMD, legal word or not, bit 0 of CTRL, and of a read-only register what it held. -/
def Obligations.WriteThenRead : Prop :=
  ∀ (s : State) (r : Reg) (v : Word) (rest : List Event),
    s.port = .access (writeAccess r v) :: .access (readAccess r) :: rest →
    ∃ (t : State) (d : Word), core.run 2 s = .next t ∧ t.port = rest ∧ t.response = some (.data d) ∧
      (r ∈ [Reg.opa, Reg.opb, Reg.opc, Reg.opd, Reg.cmd] → d = v) ∧
      (r = .ctrl → d = v &&& 1#64) ∧
      (r ∈ [Reg.res0, Reg.res1, Reg.res2, Reg.res3, Reg.status] → d = s.reg r)

/-- 10_state.md rule R29: the reserved fields of STATUS and CTRL read as zero, writes to those of CTRL are ignored, and
CMD stores its own as written, with a word that has any of them set illegal. -/
def Obligations.ReservedBitsReadZeroOrAreIllegal : Prop :=
  (∀ (s : State) (j : Nat), j = 2 ∨ j = 3 ∨ 8 ≤ j → s.statusWord.getLsbD j = false) ∧
  (∀ (s : State) (j : Nat), 1 ≤ j → s.ctrlWord.getLsbD j = false) ∧
  (∀ (s u t : State) (v v' : Word) (rest : List Event), v.getLsbD 0 = v'.getLsbD 0 →
    step { s with port := .access (writeAccess .ctrl v) :: rest } = .next t →
    step { s with port := .access (writeAccess .ctrl v') :: rest } = .next u → t = u) ∧
  ∀ (s : State) (w : Word) (rest : List Event), s.port = .access (writeAccess .cmd w) :: rest →
    w.extractLsb' 8 56 ≠ 0#56 →
    ∃ t : State, step s = .next t ∧ t.cmd = w ∧ t.statusWord = 0x13#64

/-- Only an accepted write to CMD, or reset, changes a result register, STATUS or CMD, and only it or a write to CTRL or
to an operand register changes any register (10_state.md rules R20 and R23, 20_memory.md rule R50). -/
def Obligations.OnlyCommandWritesExecute : Prop :=
  ∀ (s t : State) (a : Access) (rest : List Event), s.port = .access a :: rest → step s = .next t →
    ¬ (a.bytes = 8 ∧ a.burst = false ∧ a.offset = 0x40#7 ∧ ∃ w, a.direction = .write w) →
    t.cmd = s.cmd ∧ t.statusWord = s.statusWord ∧ t.res0 = s.res0 ∧ t.res1 = s.res1 ∧ t.res2 = s.res2 ∧ t.res3 = s.res3 ∧
    (a.offset ∉ [0x00#7, 0x08#7, 0x10#7, 0x18#7, 0x50#7] → ∀ r, t.reg r = s.reg r)

/-- 20_memory.md rule R43: the window is little-endian. Bit `j` of the data read from a register, or written to one that
takes all of it, is bit `j` of the register, and byte `b` of a register's slot is its bits `8*b+7` to `8*b`. -/
def Obligations.WindowIsLittleEndian : Prop :=
  (∀ (s : State) (r : Reg) (b : Nat), b < 8 →
    s.windowByte (regOffset r + BitVec.ofNat 7 b) = (s.reg r).extractLsb' (8 * b) 8) ∧
  (∀ (s : State) (o : BitVec 7), 0x58 ≤ o.toNat → s.windowByte o = 0#8) ∧
  (∀ (s : State) (r : Reg) (rest : List Event), s.port = .access (readAccess r) :: rest →
    ∃ (t : State) (d : Word), step s = .next t ∧ t.response = some (.data d) ∧ ∀ j, d.getLsbD j = (s.reg r).getLsbD j) ∧
  ∀ (s : State) (r : Reg) (v : Word) (rest : List Event), r ∈ [Reg.opa, Reg.opb, Reg.opc, Reg.opd, Reg.cmd] →
    s.port = .access (writeAccess r v) :: rest →
    ∃ t : State, step s = .next t ∧ (∀ j, (t.reg r).getLsbD j = v.getLsbD j) ∧
      ∀ b, b < 8 → t.windowByte (regOffset r + BitVec.ofNat 7 b) = v.extractLsb' (8 * b) 8

/-- Accesses take effect one at a time, in port order (20_memory.md rule R48). The list of events at the port is the
model's form for what is still to come, log entry 1, and a list that holds resets rests on a reset being one event of
it, log entry 5. What the first events at the port do does not depend on what comes after them, running a list of events
is running its parts one after the other, and a read right after a write to CMD returns what that command left. -/
def Obligations.PortOrderIsEffectOrder : Prop :=
  (∀ (s : State) (first then' : List Event), ∃ t : State,
    core.run first.length ({ s with port := first } : State) = .next t ∧ t.port = [] ∧
    core.run first.length ({ s with port := first ++ then' } : State) = .next ({ t with port := then' } : State) ∧
    core.run (first.length + then'.length) ({ s with port := first ++ then' } : State) =
      core.run then'.length ({ t with port := then' } : State)) ∧
  ∀ (s : State) (w : Word) (r : Reg) (rest : List Event),
    s.port = .access (writeAccess .cmd w) :: .access (readAccess r) :: rest →
    ∃ t u : State, executeCommand w { s with cmd := w } = .next t ∧ core.run 2 s = .next u ∧ u.response = some (.data (t.reg r))

/-- No hazard (70_reset_and_hazards.md rule R184): an operand or CTRL write right after a write to CMD does not disturb
the command's results or STATUS. -/
def Obligations.NoHazardAfterACommand : Prop :=
  ∀ (s : State) (w v : Word) (r : Reg) (rest : List Event), r ≠ .cmd →
    s.port = .access (writeAccess .cmd w) :: .access (writeAccess r v) :: rest →
    ∃ t u : State, step s = .next t ∧ core.run 2 s = .next u ∧ u.statusWord = t.statusWord ∧ u.cmd = w ∧
      u.res0 = t.res0 ∧ u.res1 = t.res1 ∧ u.res2 = t.res2 ∧ u.res3 = t.res3

/-- With nothing at the port a step changes nothing (the model's choice, log entry 2, from 10_state.md rule R20:
registers change by host writes and commands only). -/
def Obligations.NothingHappensWithoutTheHost : Prop :=
  ∀ s : State, s.port = [] → step s = .next s

/-! ### Reset -/

/-- 70_reset_and_hazards.md rule R180: after reset every register holds zero, from whatever state, and no command has
executed. (That a reset is one event of the port's list is the model's form for it, log entry 5.) -/
def Obligations.ResetClearsEveryRegister : Prop :=
  (State.reset.opa = 0#64 ∧ State.reset.opb = 0#64 ∧ State.reset.opc = 0#64 ∧ State.reset.opd = 0#64 ∧
    State.reset.res0 = 0#64 ∧ State.reset.res1 = 0#64 ∧ State.reset.res2 = 0#64 ∧ State.reset.res3 = 0#64 ∧
    State.reset.cmd = 0#64 ∧ State.reset.done = false ∧ State.reset.err = false ∧ State.reset.errcode = 0#4 ∧
    State.reset.strict = false) ∧
  (∀ r, State.reset.reg r = 0#64) ∧
  ∀ (s : State) (l : List Access) (rest : List Event), s.port = .reset l :: rest →
    ∃ t : State, step s = .next t ∧ t = { State.reset with port := rest } ∧ ∀ r, t.reg r = 0#64

/-- An abandoned access has no effect (70_reset_and_hazards.md rule R181, with reset as one event, log entry 5): an
access under way when reset is asserted has no effect on the reset state and gets no response; one that completed before
is overwritten, so the state is the same either way. -/
def Obligations.ResetAbandonsAccesses : Prop :=
  (∀ (s u : State) (l l' : List Access) (rest : List Event), s.port = .reset l :: rest → u.port = .reset l' :: rest →
    ∃ t : State, step s = .next t ∧ step u = .next t ∧ t.response = none) ∧
  ∀ (s : State) (a : Access) (l : List Access) (rest : List Event),
    core.run 2 ({ s with port := .access a :: .reset l :: rest } : State) =
      core.run 1 ({ s with port := .reset (a :: l) :: rest } : State)

/-- A command issued with no operand writes after reset computes on zero and returns zero results
(70_reset_and_hazards.md rule R182). -/
def Obligations.FirstCommandAfterResetGivesZero : Prop :=
  ∀ i : Instr, step (State.reset.withFetchWord 64 (encode i).toNat) =
    .next { State.reset with response := some .normal, cmd := encode i, done := true }

/-! ### Invariants and whole-machine rules -/

/-- The invariant holds after reset. -/
def Obligations.InvAfterReset : Prop := State.reset.Inv

/-- Every step keeps the invariant: STATUS agrees with the word in CMD and with what the result registers hold
(10_state.md rules R22 to R27). -/
def Obligations.StepKeepsInv : Prop :=
  ∀ s t : State, s.Inv → step s = .next t → t.Inv

/-- Every access completes (70_reset_and_hazards.md rule R186, with one step for each access, log entry 7). A step never
stops the machine and takes one event from the port; a host's whole program is performed in as many steps as it has
events; and the two loops run at most 4 times. -/
def Obligations.EveryAccessCompletes : Prop :=
  (∀ s : State, ∃ t : State, step s = .next t ∧ t.port = s.port.tail) ∧
  (∀ s : State, ∃ t : State, core.run s.port.length s = .next t ∧ t.port = []) ∧
  (∀ cx cy : Word, enc2Iterations cx.toNat cy.toNat ≤ 4) ∧
  ∀ n : BitVec 128, dec2Iterations n.toNat ≤ 4

/-! ### The placement functions and the laws -/

/-- 00_scope.md rule R13, its values "[derived: from rule R11]" by the spec itself: the lane-0 mask has a bit at each
lane-0 position and no other, and the three masks of its table. -/
def Obligations.LaneMasks : Prop :=
  (∀ K W j : Nat, (lane0 K W).testBit j = true ↔ ∃ i, i < W ∧ j = i * (K + 1)) ∧
  lane0 1 16 = 0x0000000055555555 ∧ lane0 2 10 = 0x0000000009249249 ∧ lane0 3 16 = 0x1111111111111111

/-- The laws of the placement functions, for every K and W (00_scope.md rule R14, the spec's own derivation: "[derived:
from rule R11 and rule R12]"). -/
def Obligations.PlacementLaws : Prop :=
  ∀ (n m K W : Nat),
    gather (spread n K W) K W = n % 2 ^ W ∧
    spread (gather m K W) K W = m &&& lane0 K W ∧
    (∀ j, (spread n K W).testBit j = true → (lane0 K W).testBit j = true) ∧
    spread n K W = spread (n % 2 ^ W) K W ∧
    gather m K W = gather (m &&& lane0 K W) K W ∧
    spread 0 K W = 0 ∧ gather 0 K W = 0 ∧
    ((∀ j, n.testBit j = true → m.testBit j = true) →
      (∀ j, (spread n K W).testBit j = true → (spread m K W).testBit j = true) ∧
      ∀ j, (gather n K W).testBit j = true → (gather m K W).testBit j = true)

/-- 00_scope.md rule R15: bit `d + i*D` of an interleaving is bit `i` of coordinate `d` and every other bit is zero; the
lanes are disjoint; OR, XOR and addition of the lanes give the same. -/
def Obligations.InterleavingLanesAreDisjoint : Prop :=
  ∀ (W : Nat) (vs : List Nat),
    (∀ d i, d < vs.length → i < W → (interleave W vs).testBit (d + i * vs.length) = (vs.getD d 0).testBit i) ∧
    (∀ j, W * vs.length ≤ j → (interleave W vs).testBit j = false) ∧
    (∀ d e u v, d < vs.length → e < vs.length → d ≠ e →
      (spread u (vs.length - 1) W <<< d) &&& (spread v (vs.length - 1) W <<< e) = 0) ∧
    interleave W vs = (vs.zipIdx.map fun p => spread p.1 (vs.length - 1) W <<< p.2).foldr (· ||| ·) 0 ∧
    interleave W vs = (vs.zipIdx.map fun p => spread p.1 (vs.length - 1) W <<< p.2).foldr (· ^^^ ·) 0 ∧
    interleave W vs = (vs.zipIdx.map fun p => spread p.1 (vs.length - 1) W <<< p.2).foldr (· + ·) 0

/-- The laws of the spreader commands (40_swar_spread.md rule R86, the spec's own derivation: "[derived: from rule R80
and 00_scope.md rule R14]"): with STRICT = 0, a spreader's result lies in its lane, has as many set bits as the operand
has in the domain, commutes with OR, AND and XOR, and keeps the order of the domain. -/
def Obligations.SpreaderLaws : Prop :=
  ∀ p ∈ [(Instr.spread1, 1, 16), (Instr.spread2, 2, 10), (Instr.spread3, 3, 16)],
    ∀ (s : State) (a b : Word), s.strict = false →
      ∃ ta tb tor tand txor : State,
        exec p.1 { s with opa := a } = .next ta ∧ exec p.1 { s with opa := b } = .next tb ∧
        exec p.1 { s with opa := a ||| b } = .next tor ∧ exec p.1 { s with opa := a &&& b } = .next tand ∧
        exec p.1 { s with opa := a ^^^ b } = .next txor ∧
        ta.res0 &&& ~~~ Word.ofExact (lane0 p.2.1 p.2.2) = 0#64 ∧
        popcount ta.res0 = popcount (Word.ofExact (a.toNat % 2 ^ p.2.2)) ∧
        ta.res0 ||| tb.res0 = tor.res0 ∧ ta.res0 &&& tb.res0 = tand.res0 ∧ ta.res0 ^^^ tb.res0 = txor.res0 ∧
        (ta.res0.toNat < tb.res0.toNat ↔ a.toNat % 2 ^ p.2.2 < b.toNat % 2 ^ p.2.2)

/-- The round trip (41_swar_gather.md rule R105, the spec's own derivation: "[derived: from rule R100 and 00_scope.md
rule R14]"): with STRICT = 0, a spreader followed by the gatherer of the same K on its result gives the operand's domain
bits, hence the operand exactly below `2^W`; the reverse gives the operand masked to lane 0. -/
def Obligations.SpreadGatherRoundTrip : Prop :=
  ∀ p ∈ [(Instr.spread1, Instr.gather1, 1, 16), (Instr.spread2, Instr.gather2, 2, 10), (Instr.spread3, Instr.gather3, 3, 16)],
    ∀ s : State, s.strict = false →
      (∃ t u : State, exec p.1 s = .next t ∧ exec p.2.1 { t with opa := t.res0 } = .next u ∧
        u.res0.toNat = s.opa.toNat % 2 ^ p.2.2.2 ∧ (u.res0 = s.opa ↔ s.opa.toNat < 2 ^ p.2.2.2)) ∧
      ∃ t u : State, exec p.2.1 s = .next t ∧ exec p.1 { t with opa := t.res0 } = .next u ∧
        u.res0.toNat = s.opa.toNat &&& lane0 p.2.2.1 p.2.2.2

/-- The round trips (43_morton_decode.md rule R145, the spec's own derivation: "[derived: from 42_morton_encode.md rules
R121 to R124, rules R141 to R143 and 00_scope.md rule R14]"): with STRICT = 0, an encoder followed by the decoder of its
arity on the results gives the coordinates modulo the domain, and a decoder followed by the encoder gives the code
masked to the bits the arity uses. -/
def Obligations.EncodeDecodeRoundTrip : Prop :=
  ∀ s : State, s.strict = false →
    (∃ t u : State, exec .enc2 s = .next t ∧ exec .dec2 { t with opa := t.res0, opb := t.res1 } = .next u ∧
      u.res0 = s.opa ∧ u.res1 = s.opb) ∧
    (∃ t u : State, exec .enc3 s = .next t ∧ exec .dec3 { t with opa := t.res0 } = .next u ∧
      u.res0.toNat = s.opa.toNat % 2 ^ 10 ∧ u.res1.toNat = s.opb.toNat % 2 ^ 10 ∧ u.res2.toNat = s.opc.toNat % 2 ^ 10 ∧
      (u.res0 = s.opa ∧ u.res1 = s.opb ∧ u.res2 = s.opc ↔
        s.opa.toNat < 2 ^ 10 ∧ s.opb.toNat < 2 ^ 10 ∧ s.opc.toNat < 2 ^ 10)) ∧
    (∃ t u : State, exec .enc4 s = .next t ∧ exec .dec4 { t with opa := t.res0 } = .next u ∧
      u.res0.toNat = s.opa.toNat % 2 ^ 16 ∧ u.res1.toNat = s.opb.toNat % 2 ^ 16 ∧ u.res2.toNat = s.opc.toNat % 2 ^ 16 ∧
      u.res3.toNat = s.opd.toNat % 2 ^ 16 ∧
      (u.res0 = s.opa ∧ u.res1 = s.opb ∧ u.res2 = s.opc ∧ u.res3 = s.opd ↔
        s.opa.toNat < 2 ^ 16 ∧ s.opb.toNat < 2 ^ 16 ∧ s.opc.toNat < 2 ^ 16 ∧ s.opd.toNat < 2 ^ 16)) ∧
    (∃ t u : State, exec .dec2 s = .next t ∧ exec .enc2 { t with opa := t.res0, opb := t.res1 } = .next u ∧
      u.res0 = s.opa ∧ u.res1 = s.opb) ∧
    (∃ t u : State, exec .dec3 s = .next t ∧
      exec .enc3 { t with opa := t.res0, opb := t.res1, opc := t.res2 } = .next u ∧
      u.res0.toNat = s.opa.toNat % 2 ^ 30) ∧
    ∃ t u : State, exec .dec4 s = .next t ∧
      exec .enc4 { t with opa := t.res0, opb := t.res1, opc := t.res2, opd := t.res3 } = .next u ∧ u.res0 = s.opa

/-- The laws of the encoder commands (42_morton_encode.md rule R126, the spec's own derivation: "[derived: from rules
R121 to R124 and 00_scope.md rule R15]"): zero coordinates give a zero code, all ones an all-ones code, a larger
coordinate a larger code (in strict mode too, when both commands complete), and close coordinates no close code. -/
def Obligations.EncoderLaws : Prop :=
  (∀ i ∈ [Instr.enc2, Instr.enc3, Instr.enc4], ∀ s : State,
    s.opa = 0#64 → s.opb = 0#64 → s.opc = 0#64 → s.opd = 0#64 → Succeeds i s 0#64 0#64 0#64 0#64) ∧
  (∀ s : State,
    (s.opa = 0xFFFFFFFFFFFFFFFF#64 → s.opb = 0xFFFFFFFFFFFFFFFF#64 →
      Succeeds .enc2 s 0xFFFFFFFFFFFFFFFF#64 0xFFFFFFFFFFFFFFFF#64 0#64 0#64) ∧
    (s.opa = 0x3FF#64 → s.opb = 0x3FF#64 → s.opc = 0x3FF#64 → Succeeds .enc3 s (Word.ofExact (2 ^ 30 - 1)) 0#64 0#64 0#64) ∧
    (s.opa = 0xFFFF#64 → s.opb = 0xFFFF#64 → s.opc = 0xFFFF#64 → s.opd = 0xFFFF#64 →
      Succeeds .enc4 s 0xFFFFFFFFFFFFFFFF#64 0#64 0#64 0#64)) ∧
  (∀ (s t u : State) (a b : Word), a.toNat < b.toNat →
    ∀ put ∈ ([fun v => { s with opa := v }, fun v => { s with opb := v }] : List (Word → State)),
    exec .enc2 (put a) = .next t → exec .enc2 (put b) = .next u →
    (t.res1 ++ t.res0).toNat < (u.res1 ++ u.res0).toNat) ∧
  (∀ (s t u : State) (a b : Word), a.toNat < b.toNat → b.toNat < 2 ^ 10 →
    ∀ put ∈ ([fun v => { s with opa := v }, fun v => { s with opb := v }, fun v => { s with opc := v }] :
      List (Word → State)),
    exec .enc3 (put a) = .next t → exec .enc3 (put b) = .next u → t.err = false → u.err = false →
    t.res0.toNat < u.res0.toNat) ∧
  (∀ (s t u : State) (a b : Word), a.toNat < b.toNat → b.toNat < 2 ^ 16 →
    ∀ put ∈ ([fun v => { s with opa := v }, fun v => { s with opb := v }, fun v => { s with opc := v },
      fun v => { s with opd := v }] : List (Word → State)),
    exec .enc4 (put a) = .next t → exec .enc4 (put b) = .next u → t.err = false → u.err = false →
    t.res0.toNat < u.res0.toNat) ∧
  ∀ s : State, s.opb = 0#64 →
    (s.opa = 0x7FFF#64 → Succeeds .enc2 s 0x15555555#64 0#64 0#64 0#64) ∧
    (s.opa = 0x8000#64 → Succeeds .enc2 s 0x40000000#64 0#64 0#64 0#64)

/-- The SWAR sequences of 40_swar_spread.md rules R84 and R85, whose constants the spec marks "[from general knowledge,
not in source]" and whose agreement it marks as its own derivation: the SWAR sequences of the spreaders give, for every
64-bit operand, the results of the commands, with OR as with XOR, since the two operands of a pass never share a bit
that its mask keeps. -/
def Obligations.SwarSpreadersConform : Prop :=
  (∀ (j : Join) (n : Word), swarSpread1.runLeft j n.toNat = spread n.toNat 1 16 ∧
    swarSpread2.runLeft j n.toNat = spread n.toNat 2 10 ∧ swarSpread3.runLeft j n.toNat = spread n.toNat 3 16) ∧
  (∀ (j : Join) (s : State), s.strict = false →
    Succeeds .spread1 s (Word.ofExact (swarSpread1.runLeft j s.opa.toNat)) 0#64 0#64 0#64 ∧
    Succeeds .spread2 s (Word.ofExact (swarSpread2.runLeft j s.opa.toNat)) 0#64 0#64 0#64 ∧
    Succeeds .spread3 s (Word.ofExact (swarSpread3.runLeft j s.opa.toNat)) 0#64 0#64 0#64) ∧
  ∀ q ∈ [swarSpread1, swarSpread2, swarSpread3], ∀ (j : Join) (n : Word) (k : Nat) (p : Pass), q.passes[k]? = some p →
    q.leftAfter j n.toNat k &&& (q.leftAfter j n.toNat k <<< p.shift) &&& p.mask = 0

/-- The SWAR sequences of 41_swar_gather.md rule R104, "The constants are [from general knowledge, not in source]" and
their agreement the spec's own derivation: the SWAR sequences of the gatherers give, for every 64-bit operand, the
results of the commands, with OR as with XOR; no pass has a bit in both operands under its mask; and each first mask is
the lane-0 mask. -/
def Obligations.SwarGatherersConform : Prop :=
  (∀ (j : Join) (n : Word), swarGather1.runRight j n.toNat = gather n.toNat 1 16 ∧
    swarGather2.runRight j n.toNat = gather n.toNat 2 10 ∧ swarGather3.runRight j n.toNat = gather n.toNat 3 16) ∧
  (∀ (j : Join) (s : State), s.strict = false →
    Succeeds .gather1 s (Word.ofExact (swarGather1.runRight j s.opa.toNat)) 0#64 0#64 0#64 ∧
    Succeeds .gather2 s (Word.ofExact (swarGather2.runRight j s.opa.toNat)) 0#64 0#64 0#64 ∧
    Succeeds .gather3 s (Word.ofExact (swarGather3.runRight j s.opa.toNat)) 0#64 0#64 0#64) ∧
  (∀ q ∈ [swarGather1, swarGather2, swarGather3], ∀ (j : Join) (n : Word) (k : Nat) (p : Pass), q.passes[k]? = some p →
    q.rightAfter j n.toNat k &&& (q.rightAfter j n.toNat k >>> p.shift) &&& p.mask = 0) ∧
  swarGather1.first = lane0 1 16 ∧ swarGather2.first = lane0 2 10 ∧ swarGather3.first = lane0 3 16

/-- The closed form of ENC2 (42_morton_encode.md rule R122, the spec's own derivation: "[derived: from rule R121 and
00_scope.md rules R11 and R15]"): ENC2's chunk loop equals the direct 128-bit interleaving, and any number of chunks from
its own bound up gives the same code. -/
def Obligations.Enc2ClosedForm : Prop :=
  (∀ cx cy : Word, enc2Code cx.toNat cy.toNat = spread cx.toNat 1 64 ||| (spread cy.toNat 1 64 <<< 1)) ∧
  (∀ (cx cy : Word) (i : Nat), i < 64 → (enc2Code cx.toNat cy.toNat).testBit (2 * i) = cx.getLsbD i ∧
    (enc2Code cx.toNat cy.toNat).testBit (2 * i + 1) = cy.getLsbD i) ∧
  (∀ (cx cy : Word) (k : Nat), enc2Iterations cx.toNat cy.toNat ≤ k →
    enc2Loop k 0 cx.toNat cy.toNat 0 = enc2Code cx.toNat cy.toNat) ∧
  (∀ cx cy : Word, enc2Loop 4 0 cx.toNat cy.toNat 0 = enc2Code cx.toNat cy.toNat) ∧
  ∀ s : State, ∃ r0 r1, Succeeds .enc2 s r0 r1 0#64 0#64 ∧
    (r1 ++ r0).toNat = spread s.opa.toNat 1 64 ||| (spread s.opb.toNat 1 64 <<< 1)

/-- The closed form of DEC2 (43_morton_decode.md rule R144, the spec's own derivation: "[derived: from rule R141 and
00_scope.md rule R12]"): DEC2's chunk loop equals the two direct gatherings, and any number of chunks from its own
bound up gives the same coordinates. -/
def Obligations.Dec2ClosedForm : Prop :=
  (∀ n : BitVec 128, dec2Coordinates n.toNat = (gather n.toNat 1 64, gather (n.toNat >>> 1) 1 64)) ∧
  (∀ (n : BitVec 128) (k : Nat), dec2Iterations n.toNat ≤ k → dec2Loop k 0 n.toNat 0 0 = dec2Coordinates n.toNat) ∧
  ∀ s : State, ∃ r0 r1, Succeeds .dec2 s r0 r1 0#64 0#64 ∧
    r0.toNat = gather (s.opb ++ s.opa).toNat 1 64 ∧ r1.toNat = gather ((s.opb ++ s.opa).toNat >>> 1) 1 64 ∧
    ∀ i, i < 64 → r0.getLsbD i = (s.opb ++ s.opa).getLsbD (2 * i) ∧ r1.getLsbD i = (s.opb ++ s.opa).getLsbD (2 * i + 1)

/-! ### Platform and host programs -/

/-- Instances share no state (20_memory.md rule R53): the step of one changes no other. -/
def Obligations.InstancesShareNothing : Prop :=
  ∀ (ps : List Placed) (k : Nat), ∃ qs, stepInstance k ps = .next qs ∧ qs.length = ps.length ∧
    (∀ j, j ≠ k → qs[j]? = ps[j]?) ∧
    ∀ p, ps[k]? = some p → ∃ c, step p.core = .next c ∧ qs[k]? = some { p with core := c }

/-- A transaction by address reaches the one instance whose window holds the address, at the offset it names, and no
other instance (20_memory.md rules R40 and R53; the routing is the model's reading, log entry 8). -/
def Obligations.TransactionsReachOneWindow : Prop :=
  (∀ (base : Nat) (o : BitVec 7), windowOffset base (base + o.toNat) = some o) ∧
  (∀ (base address : Nat) (o : BitVec 7), windowOffset base address = some o → address = base + o.toNat) ∧
  (∀ (p q : Placed) (t : Transaction), p.aligned = true → q.aligned = true → p.base ≠ q.base →
    windowOffset p.base t.address ≠ none → q.receive t = q) ∧
  (∀ (p : Placed) (a : Access), p.receive (transactionAt p.base a) =
    { p with core := { p.core with port := p.core.port ++ [.access a] } }) ∧
  Config.mortonBase % 128 = 0

/-- A pseudo-instruction writes its operands in order and then its command word, and running its accesses runs the
command on those operands; `STRICT ON` and `STRICT OFF` set and clear STRICT (30_encoding.md rule R70). That an operand
list of any other length than the table's is refused, the second clause, is the model's choice, log entry 10. -/
def Obligations.PseudoInstructionsRunTheirCommand : Prop :=
  (∀ (i : Instr) (args : List Word) (accesses : List Access) (s : State),
    (Line.pseudo i args).expand = some accesses →
    (core.run accesses.length ({ s with port := accesses.map Event.access } : State) : Host.Outcome State Fault Refusal) =
      exec i { ((operandRegs i).zip args).foldl (fun u p => u.store p.1 p.2) s with
        cmd := encode i, port := [], response := some .normal }) ∧
  (∀ (i : Instr) (args : List Word), ((Line.pseudo i args).expand).isSome = true ↔
    args.length = match i with
      | .spread1 | .spread2 | .spread3 | .gather1 | .gather2 | .gather3 | .dec3 | .dec4 => 1
      | .enc2 | .dec2 => 2
      | .enc3 => 3
      | .enc4 => 4) ∧
  ∀ (s : State) (on : Bool), ∃ accesses, (Line.strict on).expand = some accesses ∧
    core.run accesses.length ({ s with port := accesses.map Event.access } : State) =
      .next ({ s with port := [], response := some .normal, strict := on } : State)

/-- Every mnemonic, in any letter case (30_encoding.md rule R69), and every software name stands for its command, and
nothing else does; and the line that is CMD and one of them is the write of its word to CMD. Any letter case for a
software name too, and a blank between CMD and the name, are the model's choice, log entry 10. -/
def Obligations.NamesStandForCommands : Prop :=
  ∀ p ∈ ([(.spread1, "SPREAD1", "part1by1"), (.spread2, "SPREAD2", "part1by2"), (.spread3, "SPREAD3", "part1by3"),
      (.gather1, "GATHER1", "unpart1by1"), (.gather2, "GATHER2", "unpart1by2"), (.gather3, "GATHER3", "unpart1by3"),
      (.enc2, "ENC2", "interleave2"), (.enc3, "ENC3", "interleave3"), (.enc4, "ENC4", "interleave4"),
      (.dec2, "DEC2", "deinterleave2"), (.dec3, "DEC3", "deinterleave3"),
      (.dec4, "DEC4", "deinterleave4")] : List (Instr × String × String)),
    ∀ name : List Char,
      (instrNamed name = some p.1 ↔
        name.map Char.toLower = p.2.1.toList.map Char.toLower ∨ name.map Char.toLower = p.2.2.toList.map Char.toLower) ∧
      (name.map Char.toLower = p.2.1.toList.map Char.toLower ∨ name.map Char.toLower = p.2.2.toList.map Char.toLower →
        ∃ line, parseLine ("CMD ".toList ++ name) = some line ∧ line.expand = some [writeAccess .cmd (encode p.1)])
end

