-- ==== Sys2Proof/Laws/State.lean ====
section
/-! SUPPORT. What each named update of State leaves in each field, by rfl. -/

namespace Sys2Proof.Machine

@[simp] theorem State.succeed_opa (r : Results) (s : State) : (s.succeed r).opa = s.opa := rfl
@[simp] theorem State.succeed_opb (r : Results) (s : State) : (s.succeed r).opb = s.opb := rfl
@[simp] theorem State.succeed_opc (r : Results) (s : State) : (s.succeed r).opc = s.opc := rfl
@[simp] theorem State.succeed_opd (r : Results) (s : State) : (s.succeed r).opd = s.opd := rfl
@[simp] theorem State.succeed_res0 (r : Results) (s : State) : (s.succeed r).res0 = r.r0 := rfl
@[simp] theorem State.succeed_res1 (r : Results) (s : State) : (s.succeed r).res1 = r.r1 := rfl
@[simp] theorem State.succeed_res2 (r : Results) (s : State) : (s.succeed r).res2 = r.r2 := rfl
@[simp] theorem State.succeed_res3 (r : Results) (s : State) : (s.succeed r).res3 = r.r3 := rfl
@[simp] theorem State.succeed_cmd (r : Results) (s : State) : (s.succeed r).cmd = s.cmd := rfl
@[simp] theorem State.succeed_done (r : Results) (s : State) : (s.succeed r).done = true := rfl
@[simp] theorem State.succeed_err (r : Results) (s : State) : (s.succeed r).err = false := rfl
@[simp] theorem State.succeed_errcode (r : Results) (s : State) : (s.succeed r).errcode = 0#4 := rfl
@[simp] theorem State.succeed_strict (r : Results) (s : State) : (s.succeed r).strict = s.strict := rfl
@[simp] theorem State.succeed_port (r : Results) (s : State) : (s.succeed r).port = s.port := rfl
@[simp] theorem State.succeed_response (r : Results) (s : State) : (s.succeed r).response = s.response := rfl

@[simp] theorem State.raiseError_opa (e : CommandError) (s : State) : (s.raiseError e).opa = s.opa := rfl
@[simp] theorem State.raiseError_opb (e : CommandError) (s : State) : (s.raiseError e).opb = s.opb := rfl
@[simp] theorem State.raiseError_opc (e : CommandError) (s : State) : (s.raiseError e).opc = s.opc := rfl
@[simp] theorem State.raiseError_opd (e : CommandError) (s : State) : (s.raiseError e).opd = s.opd := rfl
@[simp] theorem State.raiseError_res0 (e : CommandError) (s : State) : (s.raiseError e).res0 = s.res0 := rfl
@[simp] theorem State.raiseError_res1 (e : CommandError) (s : State) : (s.raiseError e).res1 = s.res1 := rfl
@[simp] theorem State.raiseError_res2 (e : CommandError) (s : State) : (s.raiseError e).res2 = s.res2 := rfl
@[simp] theorem State.raiseError_res3 (e : CommandError) (s : State) : (s.raiseError e).res3 = s.res3 := rfl
@[simp] theorem State.raiseError_cmd (e : CommandError) (s : State) : (s.raiseError e).cmd = s.cmd := rfl
@[simp] theorem State.raiseError_done (e : CommandError) (s : State) : (s.raiseError e).done = true := rfl
@[simp] theorem State.raiseError_err (e : CommandError) (s : State) : (s.raiseError e).err = true := rfl
@[simp] theorem State.raiseError_errcode (e : CommandError) (s : State) : (s.raiseError e).errcode = e.code := rfl
@[simp] theorem State.raiseError_strict (e : CommandError) (s : State) : (s.raiseError e).strict = s.strict := rfl
@[simp] theorem State.raiseError_port (e : CommandError) (s : State) : (s.raiseError e).port = s.port := rfl
@[simp] theorem State.raiseError_response (e : CommandError) (s : State) : (s.raiseError e).response = s.response := rfl

@[simp] theorem State.answer_opa (r : Response) (s : State) : (s.answer r).opa = s.opa := rfl
@[simp] theorem State.answer_opb (r : Response) (s : State) : (s.answer r).opb = s.opb := rfl
@[simp] theorem State.answer_opc (r : Response) (s : State) : (s.answer r).opc = s.opc := rfl
@[simp] theorem State.answer_opd (r : Response) (s : State) : (s.answer r).opd = s.opd := rfl
@[simp] theorem State.answer_res0 (r : Response) (s : State) : (s.answer r).res0 = s.res0 := rfl
@[simp] theorem State.answer_res1 (r : Response) (s : State) : (s.answer r).res1 = s.res1 := rfl
@[simp] theorem State.answer_res2 (r : Response) (s : State) : (s.answer r).res2 = s.res2 := rfl
@[simp] theorem State.answer_res3 (r : Response) (s : State) : (s.answer r).res3 = s.res3 := rfl
@[simp] theorem State.answer_cmd (r : Response) (s : State) : (s.answer r).cmd = s.cmd := rfl
@[simp] theorem State.answer_done (r : Response) (s : State) : (s.answer r).done = s.done := rfl
@[simp] theorem State.answer_err (r : Response) (s : State) : (s.answer r).err = s.err := rfl
@[simp] theorem State.answer_errcode (r : Response) (s : State) : (s.answer r).errcode = s.errcode := rfl
@[simp] theorem State.answer_strict (r : Response) (s : State) : (s.answer r).strict = s.strict := rfl
@[simp] theorem State.answer_port (r : Response) (s : State) : (s.answer r).port = s.port := rfl
@[simp] theorem State.answer_response (r : Response) (s : State) : (s.answer r).response = some r := rfl

@[simp] theorem State.store_opa_opa (v : Word) (s : State) : (s.store .opa v).opa = v := rfl
@[simp] theorem State.store_opa_opb (v : Word) (s : State) : (s.store .opa v).opb = s.opb := rfl
@[simp] theorem State.store_opa_opc (v : Word) (s : State) : (s.store .opa v).opc = s.opc := rfl
@[simp] theorem State.store_opa_opd (v : Word) (s : State) : (s.store .opa v).opd = s.opd := rfl
@[simp] theorem State.store_opa_res0 (v : Word) (s : State) : (s.store .opa v).res0 = s.res0 := rfl
@[simp] theorem State.store_opa_res1 (v : Word) (s : State) : (s.store .opa v).res1 = s.res1 := rfl
@[simp] theorem State.store_opa_res2 (v : Word) (s : State) : (s.store .opa v).res2 = s.res2 := rfl
@[simp] theorem State.store_opa_res3 (v : Word) (s : State) : (s.store .opa v).res3 = s.res3 := rfl
@[simp] theorem State.store_opa_cmd (v : Word) (s : State) : (s.store .opa v).cmd = s.cmd := rfl
@[simp] theorem State.store_opa_done (v : Word) (s : State) : (s.store .opa v).done = s.done := rfl
@[simp] theorem State.store_opa_err (v : Word) (s : State) : (s.store .opa v).err = s.err := rfl
@[simp] theorem State.store_opa_errcode (v : Word) (s : State) : (s.store .opa v).errcode = s.errcode := rfl
@[simp] theorem State.store_opa_strict (v : Word) (s : State) : (s.store .opa v).strict = s.strict := rfl
@[simp] theorem State.store_opa_port (v : Word) (s : State) : (s.store .opa v).port = s.port := rfl
@[simp] theorem State.store_opa_response (v : Word) (s : State) : (s.store .opa v).response = s.response := rfl

@[simp] theorem State.store_opb_opa (v : Word) (s : State) : (s.store .opb v).opa = s.opa := rfl
@[simp] theorem State.store_opb_opb (v : Word) (s : State) : (s.store .opb v).opb = v := rfl
@[simp] theorem State.store_opb_opc (v : Word) (s : State) : (s.store .opb v).opc = s.opc := rfl
@[simp] theorem State.store_opb_opd (v : Word) (s : State) : (s.store .opb v).opd = s.opd := rfl
@[simp] theorem State.store_opb_res0 (v : Word) (s : State) : (s.store .opb v).res0 = s.res0 := rfl
@[simp] theorem State.store_opb_res1 (v : Word) (s : State) : (s.store .opb v).res1 = s.res1 := rfl
@[simp] theorem State.store_opb_res2 (v : Word) (s : State) : (s.store .opb v).res2 = s.res2 := rfl
@[simp] theorem State.store_opb_res3 (v : Word) (s : State) : (s.store .opb v).res3 = s.res3 := rfl
@[simp] theorem State.store_opb_cmd (v : Word) (s : State) : (s.store .opb v).cmd = s.cmd := rfl
@[simp] theorem State.store_opb_done (v : Word) (s : State) : (s.store .opb v).done = s.done := rfl
@[simp] theorem State.store_opb_err (v : Word) (s : State) : (s.store .opb v).err = s.err := rfl
@[simp] theorem State.store_opb_errcode (v : Word) (s : State) : (s.store .opb v).errcode = s.errcode := rfl
@[simp] theorem State.store_opb_strict (v : Word) (s : State) : (s.store .opb v).strict = s.strict := rfl
@[simp] theorem State.store_opb_port (v : Word) (s : State) : (s.store .opb v).port = s.port := rfl
@[simp] theorem State.store_opb_response (v : Word) (s : State) : (s.store .opb v).response = s.response := rfl

@[simp] theorem State.store_opc_opa (v : Word) (s : State) : (s.store .opc v).opa = s.opa := rfl
@[simp] theorem State.store_opc_opb (v : Word) (s : State) : (s.store .opc v).opb = s.opb := rfl
@[simp] theorem State.store_opc_opc (v : Word) (s : State) : (s.store .opc v).opc = v := rfl
@[simp] theorem State.store_opc_opd (v : Word) (s : State) : (s.store .opc v).opd = s.opd := rfl
@[simp] theorem State.store_opc_res0 (v : Word) (s : State) : (s.store .opc v).res0 = s.res0 := rfl
@[simp] theorem State.store_opc_res1 (v : Word) (s : State) : (s.store .opc v).res1 = s.res1 := rfl
@[simp] theorem State.store_opc_res2 (v : Word) (s : State) : (s.store .opc v).res2 = s.res2 := rfl
@[simp] theorem State.store_opc_res3 (v : Word) (s : State) : (s.store .opc v).res3 = s.res3 := rfl
@[simp] theorem State.store_opc_cmd (v : Word) (s : State) : (s.store .opc v).cmd = s.cmd := rfl
@[simp] theorem State.store_opc_done (v : Word) (s : State) : (s.store .opc v).done = s.done := rfl
@[simp] theorem State.store_opc_err (v : Word) (s : State) : (s.store .opc v).err = s.err := rfl
@[simp] theorem State.store_opc_errcode (v : Word) (s : State) : (s.store .opc v).errcode = s.errcode := rfl
@[simp] theorem State.store_opc_strict (v : Word) (s : State) : (s.store .opc v).strict = s.strict := rfl
@[simp] theorem State.store_opc_port (v : Word) (s : State) : (s.store .opc v).port = s.port := rfl
@[simp] theorem State.store_opc_response (v : Word) (s : State) : (s.store .opc v).response = s.response := rfl

@[simp] theorem State.store_opd_opa (v : Word) (s : State) : (s.store .opd v).opa = s.opa := rfl
@[simp] theorem State.store_opd_opb (v : Word) (s : State) : (s.store .opd v).opb = s.opb := rfl
@[simp] theorem State.store_opd_opc (v : Word) (s : State) : (s.store .opd v).opc = s.opc := rfl
@[simp] theorem State.store_opd_opd (v : Word) (s : State) : (s.store .opd v).opd = v := rfl
@[simp] theorem State.store_opd_res0 (v : Word) (s : State) : (s.store .opd v).res0 = s.res0 := rfl
@[simp] theorem State.store_opd_res1 (v : Word) (s : State) : (s.store .opd v).res1 = s.res1 := rfl
@[simp] theorem State.store_opd_res2 (v : Word) (s : State) : (s.store .opd v).res2 = s.res2 := rfl
@[simp] theorem State.store_opd_res3 (v : Word) (s : State) : (s.store .opd v).res3 = s.res3 := rfl
@[simp] theorem State.store_opd_cmd (v : Word) (s : State) : (s.store .opd v).cmd = s.cmd := rfl
@[simp] theorem State.store_opd_done (v : Word) (s : State) : (s.store .opd v).done = s.done := rfl
@[simp] theorem State.store_opd_err (v : Word) (s : State) : (s.store .opd v).err = s.err := rfl
@[simp] theorem State.store_opd_errcode (v : Word) (s : State) : (s.store .opd v).errcode = s.errcode := rfl
@[simp] theorem State.store_opd_strict (v : Word) (s : State) : (s.store .opd v).strict = s.strict := rfl
@[simp] theorem State.store_opd_port (v : Word) (s : State) : (s.store .opd v).port = s.port := rfl
@[simp] theorem State.store_opd_response (v : Word) (s : State) : (s.store .opd v).response = s.response := rfl

@[simp] theorem State.store_cmd_opa (v : Word) (s : State) : (s.store .cmd v).opa = s.opa := rfl
@[simp] theorem State.store_cmd_opb (v : Word) (s : State) : (s.store .cmd v).opb = s.opb := rfl
@[simp] theorem State.store_cmd_opc (v : Word) (s : State) : (s.store .cmd v).opc = s.opc := rfl
@[simp] theorem State.store_cmd_opd (v : Word) (s : State) : (s.store .cmd v).opd = s.opd := rfl
@[simp] theorem State.store_cmd_res0 (v : Word) (s : State) : (s.store .cmd v).res0 = s.res0 := rfl
@[simp] theorem State.store_cmd_res1 (v : Word) (s : State) : (s.store .cmd v).res1 = s.res1 := rfl
@[simp] theorem State.store_cmd_res2 (v : Word) (s : State) : (s.store .cmd v).res2 = s.res2 := rfl
@[simp] theorem State.store_cmd_res3 (v : Word) (s : State) : (s.store .cmd v).res3 = s.res3 := rfl
@[simp] theorem State.store_cmd_cmd (v : Word) (s : State) : (s.store .cmd v).cmd = v := rfl
@[simp] theorem State.store_cmd_done (v : Word) (s : State) : (s.store .cmd v).done = s.done := rfl
@[simp] theorem State.store_cmd_err (v : Word) (s : State) : (s.store .cmd v).err = s.err := rfl
@[simp] theorem State.store_cmd_errcode (v : Word) (s : State) : (s.store .cmd v).errcode = s.errcode := rfl
@[simp] theorem State.store_cmd_strict (v : Word) (s : State) : (s.store .cmd v).strict = s.strict := rfl
@[simp] theorem State.store_cmd_port (v : Word) (s : State) : (s.store .cmd v).port = s.port := rfl
@[simp] theorem State.store_cmd_response (v : Word) (s : State) : (s.store .cmd v).response = s.response := rfl

@[simp] theorem State.store_ctrl_opa (v : Word) (s : State) : (s.store .ctrl v).opa = s.opa := rfl
@[simp] theorem State.store_ctrl_opb (v : Word) (s : State) : (s.store .ctrl v).opb = s.opb := rfl
@[simp] theorem State.store_ctrl_opc (v : Word) (s : State) : (s.store .ctrl v).opc = s.opc := rfl
@[simp] theorem State.store_ctrl_opd (v : Word) (s : State) : (s.store .ctrl v).opd = s.opd := rfl
@[simp] theorem State.store_ctrl_res0 (v : Word) (s : State) : (s.store .ctrl v).res0 = s.res0 := rfl
@[simp] theorem State.store_ctrl_res1 (v : Word) (s : State) : (s.store .ctrl v).res1 = s.res1 := rfl
@[simp] theorem State.store_ctrl_res2 (v : Word) (s : State) : (s.store .ctrl v).res2 = s.res2 := rfl
@[simp] theorem State.store_ctrl_res3 (v : Word) (s : State) : (s.store .ctrl v).res3 = s.res3 := rfl
@[simp] theorem State.store_ctrl_cmd (v : Word) (s : State) : (s.store .ctrl v).cmd = s.cmd := rfl
@[simp] theorem State.store_ctrl_done (v : Word) (s : State) : (s.store .ctrl v).done = s.done := rfl
@[simp] theorem State.store_ctrl_err (v : Word) (s : State) : (s.store .ctrl v).err = s.err := rfl
@[simp] theorem State.store_ctrl_errcode (v : Word) (s : State) : (s.store .ctrl v).errcode = s.errcode := rfl
@[simp] theorem State.store_ctrl_strict (v : Word) (s : State) : (s.store .ctrl v).strict = strictOf v := rfl
@[simp] theorem State.store_ctrl_port (v : Word) (s : State) : (s.store .ctrl v).port = s.port := rfl
@[simp] theorem State.store_ctrl_response (v : Word) (s : State) : (s.store .ctrl v).response = s.response := rfl

/-- A store to a read-only register changes nothing (20_memory.md rule R45). -/
@[simp] theorem State.store_res0 (v : Word) (s : State) : s.store .res0 v = s := rfl
@[simp] theorem State.store_res1 (v : Word) (s : State) : s.store .res1 v = s := rfl
@[simp] theorem State.store_res2 (v : Word) (s : State) : s.store .res2 v = s := rfl
@[simp] theorem State.store_res3 (v : Word) (s : State) : s.store .res3 v = s := rfl
@[simp] theorem State.store_status (v : Word) (s : State) : s.store .status v = s := rfl

@[simp] theorem resetWith_opa (rest : List Event) : (resetWith rest).opa = 0#64 := rfl
@[simp] theorem resetWith_opb (rest : List Event) : (resetWith rest).opb = 0#64 := rfl
@[simp] theorem resetWith_opc (rest : List Event) : (resetWith rest).opc = 0#64 := rfl
@[simp] theorem resetWith_opd (rest : List Event) : (resetWith rest).opd = 0#64 := rfl
@[simp] theorem resetWith_res0 (rest : List Event) : (resetWith rest).res0 = 0#64 := rfl
@[simp] theorem resetWith_res1 (rest : List Event) : (resetWith rest).res1 = 0#64 := rfl
@[simp] theorem resetWith_res2 (rest : List Event) : (resetWith rest).res2 = 0#64 := rfl
@[simp] theorem resetWith_res3 (rest : List Event) : (resetWith rest).res3 = 0#64 := rfl
@[simp] theorem resetWith_cmd (rest : List Event) : (resetWith rest).cmd = 0#64 := rfl
@[simp] theorem resetWith_done (rest : List Event) : (resetWith rest).done = false := rfl
@[simp] theorem resetWith_err (rest : List Event) : (resetWith rest).err = false := rfl
@[simp] theorem resetWith_errcode (rest : List Event) : (resetWith rest).errcode = 0#4 := rfl
@[simp] theorem resetWith_strict (rest : List Event) : (resetWith rest).strict = false := rfl
@[simp] theorem resetWith_port (rest : List Event) : (resetWith rest).port = rest := rfl
@[simp] theorem resetWith_response (rest : List Event) : (resetWith rest).response = none := rfl

/-- A store to any register leaves the results, STATUS and the two ends of the port alone. -/
theorem State.store_frame (r : Reg) (v : Word) (s : State) :
    (s.store r v).res0 = s.res0 ∧ (s.store r v).res1 = s.res1 ∧ (s.store r v).res2 = s.res2 ∧
    (s.store r v).res3 = s.res3 ∧ (s.store r v).done = s.done ∧ (s.store r v).err = s.err ∧
    (s.store r v).errcode = s.errcode ∧ (s.store r v).port = s.port ∧ (s.store r v).response = s.response := by
  cases r <;> simp

end Sys2Proof.Machine
end

