-- ==== Sys2Proof/Laws/Exec.lean ====
section
/-! SUPPORT. What each shared operation can do, said once: a body, a command, a command word, a write, an access, an event
and a step. -/

namespace Sys2Proof.Machine

@[simp] theorem State.complete_ok (r : Results) (s : State) : s.complete (.ok r) = s.succeed r := rfl

@[simp] theorem State.complete_error (e : CommandError) (s : State) : s.complete (.error e) = s.raiseError e := rfl

/-- A checking body gives its results, or DOMAIN in strict mode with a bit outside. -/
theorem strictBody_cases (s : State) (outside : Bool) (r : Results) :
    (strictBody s outside r = .ok r ∧ (s.strict = false ∨ outside = false)) ∨
    (strictBody s outside r = .error .domain ∧ s.strict = true ∧ outside = true) := by
  unfold strictBody
  cases s.strict <;> cases outside <;> simp

/-- `bitsAbove n W` is zero exactly for the operands below `2 ^ W`. -/
theorem bitsAbove_eq_zero_iff (n : Word) (W : Nat) : bitsAbove n W = 0 ↔ n.toNat < 2 ^ W := by
  unfold bitsAbove
  rw [Nat.shiftRight_eq_div_pow, Nat.div_eq_zero_iff]
  have : 0 < 2 ^ W := by positivity
  omega

/-- Every command ends: with results, or with DOMAIN in strict mode (60_exceptions.md rule R161). -/
theorem exec_cases (i : Instr) (s : State) :
    (∃ r, exec i s = .next (s.succeed r)) ∨ (exec i s = .next (s.raiseError .domain) ∧ s.strict = true) := by
  have strictCase : ∀ o r, (∃ r', Host.Outcome.next (s.complete (strictBody s o r)) =
        (.next (s.succeed r') : Host.Outcome State Fault Refusal)) ∨
      (Host.Outcome.next (s.complete (strictBody s o r)) =
        (.next (s.raiseError .domain) : Host.Outcome State Fault Refusal) ∧ s.strict = true) := by
    intro o r
    rcases strictBody_cases s o r with ⟨h, -⟩ | ⟨h, hs, -⟩
    · exact .inl ⟨r, by simp [h]⟩
    · exact .inr ⟨by simp [h], hs⟩
  cases i with
  | spread1 => exact strictCase _ _
  | spread2 => exact strictCase _ _
  | spread3 => exact strictCase _ _
  | gather1 => exact strictCase _ _
  | gather2 => exact strictCase _ _
  | gather3 => exact strictCase _ _
  | enc2 => exact .inl ⟨_, rfl⟩
  | enc3 => exact strictCase _ _
  | enc4 => exact strictCase _ _
  | dec2 => exact .inl ⟨_, rfl⟩
  | dec3 => exact strictCase _ _
  | dec4 => exact .inl ⟨_, rfl⟩

/-- Executing a word runs its command, or raises ILLEGAL_CMD (60_exceptions.md rule R161). -/
theorem executeCommand_cases (w : Word) (s : State) :
    (∃ i, decode w = .ok i ∧ executeCommand w s = exec i s) ∨
    (∃ e, decode w = .error e ∧ executeCommand w s = .next (s.raiseError .illegalCmd)) := by
  unfold executeCommand
  cases h : decode w with
  | ok i => exact .inl ⟨i, rfl, rfl⟩
  | error e => exact .inr ⟨e, rfl, rfl⟩

/-- A register write executes a word, stores, or is ignored (20_memory.md rule R46). -/
theorem writeReg_cases (o : BitVec 7) (v : Word) (s : State) :
    (regAt o = some .cmd ∧ writeReg o v s = executeCommand v (s.store .cmd v)) ∨
    (∃ r, regAt o = some r ∧ r ≠ .cmd ∧ writeReg o v s = .next (s.store r v)) ∨
    (regAt o = none ∧ writeReg o v s = .next s) := by
  unfold writeReg
  cases h : regAt o with
  | none => exact .inr (.inr ⟨rfl, rfl⟩)
  | some r => cases r <;> simp

/-- The register at a register's own offset (20_memory.md rule R41). -/
@[simp] theorem regAt_regOffset (r : Reg) : regAt (regOffset r) = some r := by cases r <;> rfl

/-- A step does nothing, performs an access, or resets the core (20_memory.md rule R48). -/
theorem step_cases (s : State) :
    (s.port = [] ∧ step s = .next s) ∨
    (∃ a rest, s.port = .access a :: rest ∧ step s = performAccess a { s with port := rest }) ∨
    (∃ l rest, s.port = .reset l :: rest ∧ step s = .next (resetWith rest)) := by
  unfold step
  cases h : s.port with
  | nil => exact .inl ⟨rfl, rfl⟩
  | cons e rest =>
    cases e with
    | access a => exact .inr (.inl ⟨a, rest, rfl, rfl⟩)
    | reset l => exact .inr (.inr ⟨l, rest, rfl, rfl⟩)

/-- An access is refused, reads, or writes (20_memory.md rule R42). -/
theorem performAccess_cases (a : Access) (s : State) :
    (accepted a = false ∧ performAccess a s = .next (s.answer .busError)) ∨
    (accepted a = true ∧ a.direction = .read ∧ performAccess a s = .next (s.answer (.data (s.readReg a.offset)))) ∨
    (∃ v, accepted a = true ∧ a.direction = .write v ∧ performAccess a s = writeReg a.offset v (s.answer .normal)) := by
  unfold performAccess
  cases h : accepted a with
  | false => exact .inl ⟨rfl, rfl⟩
  | true =>
    cases hd : a.direction with
    | read => exact .inr (.inl ⟨rfl, rfl, rfl⟩)
    | write v => exact .inr (.inr ⟨v, rfl, rfl, rfl⟩)

@[simp] theorem accepted_readAccess (r : Reg) : accepted (readAccess r) = true := by cases r <;> rfl

@[simp] theorem accepted_writeAccess (r : Reg) (v : Word) : accepted (writeAccess r v) = true := by
  cases r <;> simp [accepted, writeAccess, regOffset]

@[simp] theorem writeAccess_offset (r : Reg) (v : Word) : (writeAccess r v).offset = regOffset r := rfl

@[simp] theorem writeAccess_direction (r : Reg) (v : Word) : (writeAccess r v).direction = .write v := rfl

@[simp] theorem readAccess_offset (r : Reg) : (readAccess r).offset = regOffset r := rfl

@[simp] theorem readAccess_direction (r : Reg) : (readAccess r).direction = .read := rfl

/-- The next access of `withFetchWord` runs the word as a command. -/
theorem step_withFetchWord (s : State) (nbits w : Nat) :
    step (s.withFetchWord nbits w) =
      executeCommand (tableWord nbits w) ((s.answer .normal).store .cmd (tableWord nbits w)) := by
  simp [step, State.withFetchWord, performEvent, performAccess, writeReg, writeAccess_offset, writeAccess_direction]

end Sys2Proof.Machine
end

