-- ==== Sys2Proof/Laws/PerInstr.lean ====
section
/-! SUPPORT. The family of statements made for each instruction as syntax: its word's fields are legal and its word is what
encoding those fields gives. -/

namespace Sys2Proof.Laws.EncodedFieldsLegal

/-- The word of `i` has the fields of `i`, and they are legal (30_encoding.md rules R61 and R64). -/
def Statement (i : Instr) : Prop :=
  fieldsOf (encode i) = encodeFields i ∧ (encodeFields i).wellFormed = true

theorem spread1 : Statement .spread1 := ⟨by decide, by decide⟩

theorem spread2 : Statement .spread2 := ⟨by decide, by decide⟩

theorem spread3 : Statement .spread3 := ⟨by decide, by decide⟩

theorem gather1 : Statement .gather1 := ⟨by decide, by decide⟩

theorem gather2 : Statement .gather2 := ⟨by decide, by decide⟩

theorem gather3 : Statement .gather3 := ⟨by decide, by decide⟩

theorem enc2 : Statement .enc2 := ⟨by decide, by decide⟩

theorem enc3 : Statement .enc3 := ⟨by decide, by decide⟩

theorem enc4 : Statement .enc4 := ⟨by decide, by decide⟩

theorem dec2 : Statement .dec2 := ⟨by decide, by decide⟩

theorem dec3 : Statement .dec3 := ⟨by decide, by decide⟩

theorem dec4 : Statement .dec4 := ⟨by decide, by decide⟩

end Sys2Proof.Laws.EncodedFieldsLegal
end

