-- ==== Sys2Proof/Laws/Placement.lean ====
section
/-! SUPPORT. Each bit of a placement function's value, and its size. -/

namespace Sys2Proof.Machine

@[simp] theorem spread_zero (n K : Nat) : spread n K 0 = 0 := rfl

theorem spread_succ (n K w : Nat) :
    spread n K (w + 1) = spread n K w + (n.testBit w).toNat * 2 ^ (w * (K + 1)) := rfl

@[simp] theorem gather_zero (n K : Nat) : gather n K 0 = 0 := rfl

theorem gather_succ (n K w : Nat) :
    gather n K (w + 1) = gather n K w + (n.testBit (w * (K + 1))).toNat * 2 ^ w := rfl

theorem spread_lt (n K w : Nat) : spread n K w < 2 ^ (w * (K + 1)) := by
  induction w with
  | zero => simp
  | succ w ih =>
    have hb : (n.testBit w).toNat * 2 ^ (w * (K + 1)) ≤ 2 ^ (w * (K + 1)) := by
      cases n.testBit w <;> simp
    have hp : 2 ^ ((w + 1) * (K + 1)) = 2 ^ (w * (K + 1)) * 2 ^ (K + 1) := by rw [← pow_add]; congr 1; ring
    have h2 : 2 ≤ 2 ^ (K + 1) := by rw [pow_succ]; have := Nat.one_le_two_pow (n := K); omega
    rw [spread_succ, hp]
    nlinarith [Nat.zero_le (2 ^ (w * (K + 1)))]

theorem gather_lt (n K w : Nat) : gather n K w < 2 ^ w := by
  induction w with
  | zero => simp
  | succ w ih =>
    have hb : (n.testBit (w * (K + 1))).toNat * 2 ^ w ≤ 2 ^ w := by cases n.testBit (w * (K + 1)) <;> simp
    rw [gather_succ, pow_succ]
    omega

/-- A bit of a number below `2 ^ k` with one more bit put in at `k`. -/
theorem testBit_add_bit (a k j : Nat) (b : Bool) (ha : a < 2 ^ k) :
    (a + b.toNat * 2 ^ k).testBit j = (a.testBit j || (decide (j = k) && b)) := by
  have h : a + b.toNat * 2 ^ k = 2 ^ k * b.toNat + a := by ring
  rw [h, Nat.testBit_two_pow_mul_add _ ha]
  by_cases hj : j < k
  · have : j ≠ k := by omega
    simp [hj, this]
  · have haj : a.testBit j = false := Nat.testBit_lt_two_pow (lt_of_lt_of_le ha (Nat.pow_le_pow_right (by omega) (by omega)))
    by_cases hk : j = k
    · subst hk
      cases b <;> simp [haj]
    · have : j - k ≠ 0 := by omega
      have h1 : Nat.testBit 1 (j - k) = false :=
        Nat.testBit_lt_two_pow (by have := Nat.one_lt_two_pow this; omega)
      cases b <;> simp [hj, haj, hk, h1]

/-- Bit `j` of `spread(n, K, W)` (00_scope.md rule R11). -/
theorem testBit_spread (n K W j : Nat) :
    (spread n K W).testBit j = (decide (j % (K + 1) = 0) && decide (j / (K + 1) < W) && n.testBit (j / (K + 1))) := by
  induction W with
  | zero => simp
  | succ w ih =>
    rw [spread_succ, testBit_add_bit _ _ _ _ (spread_lt n K w), ih]
    by_cases hj : j = w * (K + 1)
    · subst hj
      have h1 : w * (K + 1) / (K + 1) = w := Nat.mul_div_cancel _ (by omega)
      simp [h1]
    · by_cases hm : j % (K + 1) = 0
      · have hw : j / (K + 1) ≠ w := by
          intro h
          apply hj
          have := Nat.div_add_mod j (K + 1)
          rw [hm, h] at this
          rw [← this]; ring
        have hlt : j / (K + 1) < w + 1 ↔ j / (K + 1) < w := by omega
        simp [hj, hm, hlt]
      · simp [hj, hm]

/-- Bit `i` of `gather(n, K, W)` (00_scope.md rule R12). -/
theorem testBit_gather (n K W i : Nat) :
    (gather n K W).testBit i = (decide (i < W) && n.testBit (i * (K + 1))) := by
  induction W with
  | zero => simp
  | succ w ih =>
    rw [gather_succ, testBit_add_bit _ _ _ _ (gather_lt n K w), ih]
    by_cases hi : i = w
    · subst hi; simp
    · have hlt : i < w + 1 ↔ i < w := by omega
      simp [hi, hlt]

theorem lanesFrom_nil (K W d : Nat) : lanesFrom K W d [] = 0 := rfl

theorem lanesFrom_cons (K W d v : Nat) (vs : List Nat) :
    lanesFrom K W d (v :: vs) = (spread v K W <<< d) ||| lanesFrom K W (d + 1) vs := rfl

/-- Bit `i` of coordinate `d` (43_morton_decode.md rule R140). -/
theorem testBit_coordinate (D W n d i : Nat) (hD : 1 ≤ D) :
    (coordinate D W n d).testBit i = (decide (i < W) && n.testBit (d + i * D)) := by
  have : D - 1 + 1 = D := by omega
  simp [coordinate, testBit_gather, Nat.testBit_shiftRight, this]

/-- Bit `j` of a coordinate spread into lane `d` of `D = K + 1` lanes (00_scope.md rule R15). -/
theorem testBit_lane (v K W d j : Nat) (hd : d < K + 1) :
    (spread v K W <<< d).testBit j = (decide (j % (K + 1) = d) && decide (j / (K + 1) < W) && v.testBit (j / (K + 1))) := by
  rw [Nat.testBit_shiftLeft, testBit_spread]
  have hj := Nat.div_add_mod j (K + 1)
  have hlt := Nat.mod_lt j (show K + 1 > 0 by omega)
  by_cases h : j % (K + 1) = d
  · have hsub : j - d = (K + 1) * (j / (K + 1)) := by omega
    have hle : d ≤ j := by rw [← h]; exact Nat.mod_le _ _
    simp [hsub, hle, h]
  · by_cases hle : d ≤ j
    · have hne : (j - d) % (K + 1) ≠ 0 := by
        intro h0
        apply h
        have h1 := Nat.div_add_mod (j - d) (K + 1)
        have h2 : j = (K + 1) * ((j - d) / (K + 1)) + d := by omega
        rw [h2, Nat.mul_add_mod, Nat.mod_eq_of_lt hd]
      simp [h, hne]
    · simp [h, hle]

/-- Bit `j` of the lanes from lane `d` on, of `D = K + 1` lanes. -/
theorem testBit_lanesFrom (K W j : Nat) (vs : List Nat) : ∀ d, d + vs.length ≤ K + 1 →
    (lanesFrom K W d vs).testBit j =
      (decide (d ≤ j % (K + 1)) && decide (j / (K + 1) < W) && (vs.getD (j % (K + 1) - d) 0).testBit (j / (K + 1))) := by
  induction vs with
  | nil => intro d _; simp [lanesFrom]
  | cons v vs ih =>
    intro d hd
    have hlen : (v :: vs).length = vs.length + 1 := rfl
    rw [lanesFrom_cons, Nat.testBit_or, testBit_lane _ _ _ _ _ (by omega), ih (d + 1) (by omega)]
    rcases Nat.lt_trichotomy (j % (K + 1)) d with h | h | h
    · have h1 : ¬ d ≤ j % (K + 1) := by omega
      have h2 : ¬ d + 1 ≤ j % (K + 1) := by omega
      have h3 : j % (K + 1) ≠ d := by omega
      simp [h1, h2, h3]
    · have h2 : ¬ d + 1 ≤ d := by omega
      simp [h]
    · have h1 : d ≤ j % (K + 1) := by omega
      have h2 : d + 1 ≤ j % (K + 1) := by omega
      have h3 : j % (K + 1) ≠ d := by omega
      have h4 : j % (K + 1) - d = j % (K + 1) - (d + 1) + 1 := by omega
      simp [h1, h2, h3, h4]

/-- Bit `j` of an interleaving of `D` coordinates (00_scope.md rule R15). -/
theorem testBit_interleave (W j : Nat) (vs : List Nat) (hvs : vs ≠ []) :
    (interleave W vs).testBit j =
      (decide (j / vs.length < W) && (vs.getD (j % vs.length) 0).testBit (j / vs.length)) := by
  have hpos : 0 < vs.length := List.length_pos_iff.mpr hvs
  have hK : vs.length - 1 + 1 = vs.length := by omega
  have h := testBit_lanesFrom (vs.length - 1) W j vs 0 (by omega)
  rw [hK] at h
  simp [interleave, h]

end Sys2Proof.Machine
end

