-- ==== Sys2Proof/Laws/Run.lean ====
section
/-! SUPPORT. Running several steps: the host's `run` of this machine, one step at a time. -/

namespace Sys2Proof.Machine

theorem core_run_zero (s : State) : core.run 0 s = .next s := rfl

/-- A run whose first step is known goes on from its next state. -/
theorem core_run_of_step (k : Nat) (s t : State) (h : step s = .next t) : core.run (k + 1) s = core.run k t := by
  have h' : core.step s = .next t := h
  rw [Host.Core.run.eq_2 core s k, h']

end Sys2Proof.Machine
end

