-- ==== Sys2Proof/Tests/Slice0.lean ====
section
/-! SUPPORT. Tests, their expected values taken from the rules and from spec/95_test_vectors.md, and a witness for the
hypotheses of every statement that has some. -/

namespace Sys2Proof.Tests

open Sys2Proof Sys2Proof.Machine

/-- The reset state with STRICT and the four operand registers written, the start of the vectors of 95 L2. -/
def st (strict : Bool) (a b c d : Word) : State :=
  { State.reset with strict := strict, opa := a, opb := b, opc := c, opd := d }

/-- A state with these events at the port. -/
def State.at (s : State) (events : List Event) : State := { s with port := events }

/-- RES0, RES1, RES2, RES3 and STATUS of the next state. -/
def outcome (o : Host.Outcome State Fault Refusal) : Option (Word × Word × Word × Word × Word) :=
  match o with
  | .next t => some (t.res0, t.res1, t.res2, t.res3, t.statusWord)
  | _ => none

/-- What one access does from `s`: the response, and the register `r` after it. -/
def after (s : State) (a : Access) (r : Reg) : Option (Option Response × Word) :=
  match step (State.at s [.access a]) with
  | .next t => some (t.response, t.reg r)
  | _ => none

/-! ### WellFormed: each check refuses an ill-formed term -/

theorem test_rsvd_refused : CommandFields.wellFormed ⟨1#56, 0#2, .spread, 1#4⟩ = false := by decide

theorem test_pfx_refused : CommandFields.wellFormed ⟨0#56, 0b01#2, .spread, 1#4⟩ = false := by decide

theorem test_param_refused :
    CommandFields.wellFormed ⟨0#56, 0#2, .spread, 0#4⟩ = false ∧
    CommandFields.wellFormed ⟨0#56, 0#2, .spread, 4#4⟩ = false ∧
    CommandFields.wellFormed ⟨0#56, 0#2, .gather, 0#4⟩ = false ∧
    CommandFields.wellFormed ⟨0#56, 0#2, .gather, 4#4⟩ = false ∧
    CommandFields.wellFormed ⟨0#56, 0#2, .encode, 1#4⟩ = false ∧
    CommandFields.wellFormed ⟨0#56, 0#2, .encode, 5#4⟩ = false ∧
    CommandFields.wellFormed ⟨0#56, 0#2, .decode, 1#4⟩ = false ∧
    CommandFields.wellFormed ⟨0#56, 0#2, .decode, 5#4⟩ = false := by decide

theorem test_legal_fields_accepted :
    CommandFields.wellFormed ⟨0#56, 0#2, .gather, 3#4⟩ = true ∧
    CommandFields.wellFormed ⟨0#56, 0#2, .encode, 4#4⟩ = true := by decide

/-! ### Decoding: the words written out from 30_encoding.md rules R61 and R64 as RSVD, then PFX : CLASS : PARAM -/

theorem test_decode_spread :
    decode (0#56 ++ 0b00000001#8) = .ok .spread1 ∧
    decode (0#56 ++ 0b00000010#8) = .ok .spread2 ∧
    decode (0#56 ++ 0b00000011#8) = .ok .spread3 := by decide

theorem test_decode_gather :
    decode (0#56 ++ 0b00010001#8) = .ok .gather1 ∧
    decode (0#56 ++ 0b00010010#8) = .ok .gather2 ∧
    decode (0#56 ++ 0b00010011#8) = .ok .gather3 := by decide

theorem test_decode_encode :
    decode (0#56 ++ 0b00100010#8) = .ok .enc2 ∧
    decode (0#56 ++ 0b00100011#8) = .ok .enc3 ∧
    decode (0#56 ++ 0b00100100#8) = .ok .enc4 := by decide

theorem test_decode_decode :
    decode (0#56 ++ 0b00110010#8) = .ok .dec2 ∧
    decode (0#56 ++ 0b00110011#8) = .ok .dec3 ∧
    decode (0#56 ++ 0b00110100#8) = .ok .dec4 := by decide

/-- 95 X1 to X9, with the reason. -/
theorem test_decode_illegal :
    decode 0x0#64 = .error .parameter ∧ decode 0x04#64 = .error .parameter ∧ decode 0x14#64 = .error .parameter ∧
    decode 0x21#64 = .error .parameter ∧ decode 0x31#64 = .error .parameter ∧ decode 0x35#64 = .error .parameter ∧
    decode 0x41#64 = .error .opcodePfx ∧ decode 0x81#64 = .error .opcodePfx ∧ decode 0x101#64 = .error .reservedBits ∧
    decode 0x8000000000000001#64 = .error .reservedBits := by decide

theorem test_encode :
    encode .spread3 = 0x03#64 ∧ encode .gather2 = 0x12#64 ∧ encode .enc4 = 0x24#64 ∧ encode .dec2 = 0x32#64 := by decide

theorem test_decode_table_word :
    decodeTableWord 64 0x12 = some .gather2 ∧ decodeTableWord 64 0x34 = some .dec4 ∧ decodeTableWord 64 0 = none ∧
    decodeTableWord 8 0x22 = some .enc2 := by decide

/-- The first step from reset with ENC2's word placed runs it: STATUS tells success. -/
theorem test_with_fetch_word :
    outcome (step (State.reset.withFetchWord 64 0x22)) = some (0#64, 0#64, 0#64, 0#64, 0x1#64) := by decide

/-! ### The commands: 95 L2, two vectors each -/

/-- 95 S1a. -/
theorem test_spread1_example :
    outcome (exec .spread1 (st false 0x1234#64 0#64 0#64 0#64)) =
      some (0x01040510#64, 0#64, 0#64, 0#64, 0x1#64) := by decide

/-- 95 S1g. -/
theorem test_spread1_domain :
    outcome (exec .spread1 (st true 0x10000#64 0#64 0#64 0#64)) =
      some (0#64, 0#64, 0#64, 0#64, 0x23#64) := by decide

/-- 95 S2c. -/
theorem test_spread2_ten_bits :
    outcome (exec .spread2 (st false 0xFFFF#64 0#64 0#64 0#64)) =
      some (0x09249249#64, 0#64, 0#64, 0#64, 0x1#64) := by decide

/-- 95 S2f. -/
theorem test_spread2_domain :
    outcome (exec .spread2 (st true 0x400#64 0#64 0#64 0#64)) =
      some (0#64, 0#64, 0#64, 0#64, 0x23#64) := by decide

/-- 95 S3a. -/
theorem test_spread3_example :
    outcome (exec .spread3 (st false 0xABCD#64 0#64 0#64 0#64)) =
      some (0x1010101111001101#64, 0#64, 0#64, 0#64, 0x1#64) := by decide

/-- 95 S3e. -/
theorem test_spread3_domain :
    outcome (exec .spread3 (st true 0x10000#64 0#64 0#64 0#64)) =
      some (0#64, 0#64, 0#64, 0#64, 0x23#64) := by decide

/-- 95 G1e. -/
theorem test_gather1_discards_bit_32 :
    outcome (exec .gather1 (st false 0x100000001#64 0#64 0#64 0#64)) =
      some (0x1#64, 0#64, 0#64, 0#64, 0x1#64) := by decide

/-- 95 G1f. -/
theorem test_gather1_domain :
    outcome (exec .gather1 (st true 0x2#64 0#64 0#64 0#64)) =
      some (0#64, 0#64, 0#64, 0#64, 0x23#64) := by decide

/-- 95 G2d. -/
theorem test_gather2_ignores_bit_30 :
    outcome (exec .gather2 (st false 0x40000000#64 0#64 0#64 0#64)) =
      some (0x0#64, 0#64, 0#64, 0#64, 0x1#64) := by decide

/-- 95 G2f. -/
theorem test_gather2_domain :
    outcome (exec .gather2 (st true 0x40000000#64 0#64 0#64 0#64)) =
      some (0#64, 0#64, 0#64, 0#64, 0x23#64) := by decide

/-- 95 G3a. -/
theorem test_gather3_example :
    outcome (exec .gather3 (st false 0x1010101111001101#64 0#64 0#64 0#64)) =
      some (0xABCD#64, 0#64, 0#64, 0#64, 0x1#64) := by decide

/-- 95 G3f. -/
theorem test_gather3_domain :
    outcome (exec .gather3 (st true 0x2#64 0#64 0#64 0#64)) =
      some (0#64, 0#64, 0#64, 0#64, 0x23#64) := by decide

/-- 95 E2h. -/
theorem test_enc2_unequal_widths :
    outcome (exec .enc2 (st false 0x123456789#64 0xFEDCBA9876543210#64 0#64 0#64)) =
      some (0x2E2D32311E1D4241#64, 0xAAA8A2A08A888281#64, 0#64, 0#64, 0x1#64) := by decide

/-- 95 E2i. -/
theorem test_enc2_never_raises :
    outcome (exec .enc2 (st true 0xFFFFFFFFFFFFFFFF#64 0xFFFFFFFFFFFFFFFF#64 0#64 0#64)) =
      some (0xFFFFFFFFFFFFFFFF#64, 0xFFFFFFFFFFFFFFFF#64, 0#64, 0#64, 0x1#64) := by decide

/-- 95 E3g. -/
theorem test_enc3_domain :
    outcome (exec .enc3 (st true 0#64 0x400#64 0#64 0#64)) =
      some (0#64, 0#64, 0#64, 0#64, 0x23#64) := by decide

/-- 95 E3h. -/
theorem test_enc3_does_not_read_opd :
    outcome (exec .enc3 (st true 0x3FF#64 0x3FF#64 0x3FF#64 0xFFFFFFFFFFFFFFFF#64)) =
      some (0x3FFFFFFF#64, 0#64, 0#64, 0#64, 0x1#64) := by decide

/-- 95 E4f. -/
theorem test_enc4_mixed_lanes :
    outcome (exec .enc4 (st false 0xABCD#64 0x1234#64 0#64 0xFFFF#64)) =
      some (0x989A98B999AA9B89#64, 0#64, 0#64, 0#64, 0x1#64) := by decide

/-- 95 E4g. -/
theorem test_enc4_domain :
    outcome (exec .enc4 (st true 0#64 0#64 0#64 0x10000#64)) =
      some (0#64, 0#64, 0#64, 0#64, 0x23#64) := by decide

/-- 95 D2h. -/
theorem test_dec2_four_chunks :
    outcome (exec .dec2 (st false 0x2E2D32311E1D4241#64 0xAAA8A2A08A888281#64 0#64 0#64)) =
      some (0x123456789#64, 0xFEDCBA9876543210#64, 0#64, 0#64, 0x1#64) := by decide

/-- 95 D2i. -/
theorem test_dec2_never_raises :
    outcome (exec .dec2 (st true 0xFFFFFFFFFFFFFFFF#64 0xFFFFFFFFFFFFFFFF#64 0#64 0#64)) =
      some (0xFFFFFFFFFFFFFFFF#64, 0xFFFFFFFFFFFFFFFF#64, 0#64, 0#64, 0x1#64) := by decide

/-- 95 D3g. -/
theorem test_dec3_mixed_lanes :
    outcome (exec .dec3 (st false 0x35D75D75#64 0#64 0#64 0#64)) =
      some (0x155#64, 0x2AA#64, 0x3FF#64, 0#64, 0x1#64) := by decide

/-- 95 D3h. -/
theorem test_dec3_domain :
    outcome (exec .dec3 (st true 0x40000000#64 0#64 0#64 0#64)) =
      some (0#64, 0#64, 0#64, 0#64, 0x23#64) := by decide

/-- 95 D4f. -/
theorem test_dec4_mixed_lanes :
    outcome (exec .dec4 (st false 0x989A98B999AA9B89#64 0#64 0#64 0#64)) =
      some (0xABCD#64, 0x1234#64, 0#64, 0xFFFF#64, 0x1#64) := by decide

/-- 95 D4g. -/
theorem test_dec4_never_raises :
    outcome (exec .dec4 (st true 0xFFFFFFFFFFFFFFFF#64 0#64 0#64 0#64)) =
      some (0xFFFF#64, 0xFFFF#64, 0xFFFF#64, 0xFFFF#64, 0x1#64) := by decide

/-- 95 X7, in both modes: an illegal word leaves STATUS `0x13` and no result. -/
theorem test_illegal_word :
    outcome (executeCommand 0x41#64 (st false 5#64 0#64 0#64 0#64)) = some (0#64, 0#64, 0#64, 0#64, 0x13#64) ∧
    outcome (executeCommand 0x41#64 (st true 5#64 0#64 0#64 0#64)) = some (0#64, 0#64, 0#64, 0#64, 0x13#64) := by decide

/-! ### The port: 95, bus behaviour -/

/-- 95 B1. -/
theorem test_reserved_read : after State.reset ⟨0x58#7, 8, false, .read⟩ .opa = some (some (.data 0#64), 0#64) := by decide

/-- 95 B2. -/
theorem test_reserved_write : after State.reset ⟨0x60#7, 8, false, .write 0x1234#64⟩ .opa = some (some .normal, 0#64) := by
  decide

/-- 95 B3. -/
theorem test_read_only_result : after State.reset (writeAccess .res0 0xDEAD#64) .res0 = some (some .normal, 0#64) := by
  decide

/-- 95 B4. -/
theorem test_read_only_status : after State.reset (writeAccess .status 0xFF#64) .status = some (some .normal, 0#64) := by
  decide

/-- 95 B5. -/
theorem test_ctrl_keeps_bit_0 :
    after State.reset (writeAccess .ctrl 0xFFFFFFFFFFFFFFFF#64) .ctrl = some (some .normal, 1#64) := by decide

/-- 95 B6. -/
theorem test_narrow_write_refused :
    after State.reset ⟨0x00#7, 4, false, .write 0x865#64⟩ .opa = some (some .busError, 0#64) := by decide

/-- 95 B7. -/
theorem test_narrow_read_refused : after State.reset ⟨0x48#7, 1, false, .read⟩ .status = some (some .busError, 0#64) := by
  decide

/-- 95 B8. -/
theorem test_misaligned_command_refused :
    after State.reset ⟨0x44#7, 8, false, .write 0x22#64⟩ .cmd = some (some .busError, 0#64) ∧
    after State.reset ⟨0x44#7, 8, false, .write 0x22#64⟩ .status = some (some .busError, 0#64) := by decide

/-- 20_memory.md rule R42: a burst is refused. -/
theorem test_burst_refused :
    after State.reset ⟨0x00#7, 8, true, .write 1#64⟩ .opa = some (some .busError, 0#64) := by decide

/-- 95 B10. -/
theorem test_cmd_keeps_reserved_bits :
    after State.reset (writeAccess .cmd 0x101#64) .cmd = some (some .normal, 0x101#64) := by decide

/-- 70_reset_and_hazards.md rules R180 and R181. -/
theorem test_reset_event :
    step (State.at (st true 1#64 2#64 3#64 4#64) [.reset [readAccess .opa]]) = .next State.reset := rfl

/-! ### Host programs: 30_encoding.md rules R68 to R70, the lines of 95 L3 -/

/-- A line's accesses as offset, byte count and direction. -/
def lineAccesses (text : String) : Option (List Access) := (parseLine text.toList).bind Line.expand

theorem test_line_write : lineAccesses "WR OPB, 42" = some [⟨0x08#7, 8, false, .write 0x2A#64⟩] := by decide

theorem test_line_read : lineAccesses "RD RES0  ; -> 0x898" = some [⟨0x20#7, 8, false, .read⟩] := by decide

theorem test_line_width : lineAccesses "WR.4 OPA, 0x865" = some [⟨0x00#7, 4, false, .write 0x865#64⟩] := by decide

theorem test_line_raw_offset : lineAccesses "RD @0x58" = some [⟨0x58#7, 8, false, .read⟩] := by decide

theorem test_line_raw_word :
    lineAccesses "CMD 0x0000_0000_0000_0041" = some [⟨0x40#7, 8, false, .write 0x41#64⟩] := by decide

theorem test_line_alias : lineAccesses "CMD Part1By2" = some [⟨0x40#7, 8, false, .write 0x2#64⟩] := by decide

theorem test_line_strict : lineAccesses "STRICT ON" = some [⟨0x50#7, 8, false, .write 1#64⟩] := by decide

theorem test_line_pseudo :
    lineAccesses "DEC2 0x898, 0x0" = some [⟨0x00#7, 8, false, .write 0x898#64⟩, ⟨0x08#7, 8, false, .write 0#64⟩,
      ⟨0x40#7, 8, false, .write 0x32#64⟩] := by decide

theorem test_line_bare_mnemonic : lineAccesses "enc4" = some [⟨0x40#7, 8, false, .write 0x24#64⟩] := by decide

theorem test_line_refused :
    parseLine "WR OPA, 0x1_0000_0000_0000_0000".toList = none ∧ parseLine "RD.3 OPA".toList = none ∧
    lineAccesses "ENC2 1" = none := by decide

/-- Log entry 10: a decimal offset, and `_` anywhere after `0x`. -/
theorem test_line_literal_forms :
    lineAccesses "RD @88" = some [⟨0x58#7, 8, false, .read⟩] ∧
    lineAccesses "WR OPA, 0x_1__2_" = some [⟨0x00#7, 8, false, .write 0x12#64⟩] ∧
    parseLine "RD @128".toList = none ∧ parseLine "WR OPA, 1_2".toList = none := by decide

/-! ### Witnesses: for each statement with hypotheses, a state and operands that meet them together -/

theorem witness_EncodeThenDecode :
    Instr.wellFormed .spread1 = true ∧ decode 0x34#64 = .ok .dec4 := by
  decide

theorem witness_EveryOtherWordIsIllegal :
    0x4#64 ∉ ([0x01#64, 0x02#64, 0x03#64, 0x11#64, 0x12#64, 0x13#64, 0x22#64, 0x23#64, 0x24#64, 0x32#64, 0x33#64,
      0x34#64] : List Word) ∧
    (fieldsOf 0x101#64).rsvd ≠ 0#56 ∧ (fieldsOf 0x41#64).pfx ≠ 0#2 ∧ (fieldsOf 0x21#64).paramLegal = false := by
  decide

theorem witness_StepRunsTheDecodedCommand :
    ∃ (s : State) (w : Word) (i : Instr) (rest : List Event),
      s.port = .access (writeAccess .cmd w) :: rest ∧ decode w = .ok i := by
  exact ⟨State.at State.reset [.access (writeAccess .cmd 0x22#64)], 0x22#64, .enc2, [], by decide, by decide⟩

theorem witness_IllegalWordRaisesIllegalCmd :
    ∃ (s : State) (w : Word) (rest : List Event),
      s.port = .access (writeAccess .cmd w) :: rest ∧ ∀ i, w ≠ encode i := by
  exact ⟨State.at State.reset [.access (writeAccess .cmd 0x41#64)], 0x41#64, [], by decide,
    by intro i; cases i <;> decide⟩

/-- For every command that can raise DOMAIN, the first operand outside its domain. -/
theorem witness_DomainErrorsFollowTheTable_outside :
    OutOfDomain .spread1 (st true 0x10000#64 0#64 0#64 0#64) ∧ OutOfDomain .spread2 (st true 0x400#64 0#64 0#64 0#64) ∧
    OutOfDomain .spread3 (st true 0x10000#64 0#64 0#64 0#64) ∧ OutOfDomain .gather1 (st true 0x100000000#64 0#64 0#64 0#64) ∧
    OutOfDomain .gather2 (st true 0x40000000#64 0#64 0#64 0#64) ∧ OutOfDomain .gather3 (st true 0x2#64 0#64 0#64 0#64) ∧
    OutOfDomain .enc3 (st true 0#64 0#64 0x400#64 0#64) ∧ OutOfDomain .enc4 (st true 0#64 0#64 0#64 0x10000#64) ∧
    OutOfDomain .dec3 (st true 0x40000000#64 0#64 0#64 0#64) := by
  unfold OutOfDomain; decide

/-- For every command, the largest operands in its domain, in strict mode. -/
theorem witness_DomainErrorsFollowTheTable_inside :
    ¬ OutOfDomain .spread1 (st true 0xFFFF#64 0#64 0#64 0#64) ∧ ¬ OutOfDomain .spread2 (st true 0x3FF#64 0#64 0#64 0#64) ∧
    ¬ OutOfDomain .spread3 (st true 0xFFFF#64 0#64 0#64 0#64) ∧
    ¬ OutOfDomain .gather1 (st true 0x55555555#64 0#64 0#64 0#64) ∧
    ¬ OutOfDomain .gather2 (st true 0x09249249#64 0#64 0#64 0#64) ∧
    ¬ OutOfDomain .gather3 (st true 0x1111111111111111#64 0#64 0#64 0#64) ∧
    ¬ OutOfDomain .enc2 (st true 0xFFFFFFFFFFFFFFFF#64 0xFFFFFFFFFFFFFFFF#64 0#64 0#64) ∧
    ¬ OutOfDomain .enc3 (st true 0x3FF#64 0x3FF#64 0x3FF#64 0xFFFFFFFFFFFFFFFF#64) ∧
    ¬ OutOfDomain .enc4 (st true 0xFFFF#64 0xFFFF#64 0xFFFF#64 0xFFFF#64) ∧
    ¬ OutOfDomain .dec2 (st true 0xFFFFFFFFFFFFFFFF#64 0xFFFFFFFFFFFFFFFF#64 0#64 0#64) ∧
    ¬ OutOfDomain .dec3 (st true 0x3FFFFFFF#64 0#64 0#64 0#64) ∧
    ¬ OutOfDomain .dec4 (st true 0xFFFFFFFFFFFFFFFF#64 0#64 0#64 0#64) := by
  unfold OutOfDomain; decide

/-- And strict-mode results equal to those with STRICT = 0, for the last clause. -/
theorem witness_DomainErrorsFollowTheTable_same :
    (st true 0x3FFFFFFF#64 0#64 0#64 0#64).strict = true ∧ ¬ OutOfDomain .dec3 (st true 0x3FFFFFFF#64 0#64 0#64 0#64) ∧
    ∃ r0 r1 r2 r3, Succeeds .dec3 { st true 0x3FFFFFFF#64 0#64 0#64 0#64 with strict := false } r0 r1 r2 r3 := by
  refine ⟨by decide, by unfold OutOfDomain; decide, 0x3FF#64, 0x3FF#64, 0x3FF#64, 0#64, _, rfl, by decide, by decide⟩

theorem witness_StatusLayoutAndValues :
    (∃ t, executeCommand 0x22#64 (st false 4#64 42#64 0#64 0#64) = .next t) ∧
    (∃ (s t : State) (a : Access) (rest : List Event), s.port = .access a :: rest ∧ step s = .next t ∧ s.statusWord ≠ 0#64) ∧
    ∃ (s : State) (v : Word) (rest : List Event), s.port = .access (writeAccess .status v) :: rest := by
  exact ⟨⟨_, rfl⟩, ⟨State.at { State.reset with done := true } [.access (readAccess .opa)], _, readAccess .opa, [], by decide, rfl,
    by decide⟩, ⟨State.at State.reset [.access (writeAccess .status 0xFF#64)], 0xFF#64, [], by decide⟩⟩

theorem witness_DoneIsClearedByResetOnly :
    (∃ t, executeCommand 0x22#64 (st false 4#64 42#64 0#64 0#64) = .next t) ∧
    (∃ (s t : State) (a : Access) (rest : List Event), s.port = .access a :: rest ∧ step s = .next t ∧ s.done = true) ∧
    ∃ (s : State) (l : List Access) (rest : List Event), s.port = .reset l :: rest ∧ s.done = true := by
  exact ⟨⟨_, rfl⟩, ⟨State.at { State.reset with done := true } [.access (readAccess .opa)], _, readAccess .opa, [], by decide, rfl,
    by decide⟩, ⟨State.at { State.reset with done := true } [.reset []], [], [], by decide, by decide⟩⟩

theorem witness_ErrorsArePrecise :
    (∃ (s t : State) (w : Word) (rest : List Event), s.port = .access (writeAccess .cmd w) :: rest ∧
      step s = .next t ∧ t.err = true) ∧
    ∃ (events : List Event) (n : Nat) (t : State), n = 1 ∧
      core.run n ({ State.reset with port := events } : State) = .next t ∧
      ∀ (k : Nat) (u : State), k ≤ n → core.run k ({ State.reset with port := events } : State) = .next u →
        u.done = false ∨ u.err = true := by
  refine ⟨⟨State.at (st true 0x400#64 0#64 0#64 0#64) [.access (writeAccess .cmd 0x2#64)], _, 0x2#64, [], by decide, rfl,
    by decide⟩, [.access (writeAccess .cmd 0x41#64)], 1, _, rfl, (core_run_of_step 0 _ _ rfl).trans (core_run_zero _), ?_⟩
  intro k u hk hu
  match k, hk with
  | 0, _ =>
    cases (core_run_zero _).symm.trans hu
    exact .inl rfl
  | 1, _ =>
    cases ((core_run_of_step 0 _ _ rfl).trans (core_run_zero _)).symm.trans hu
    exact .inr rfl

theorem witness_CommandFrame :
    (∃ t, executeCommand 0x22#64 (st false 4#64 42#64 0#64 0#64) = .next t) ∧
    ∃ t, executeCommand 0x02#64 (st true 0x400#64 0#64 0#64 0#64) = .next t ∧ t.err = true ∧
      ¬ (0x20 ≤ (0x1F#7).toNat ∧ (0x1F#7).toNat < 0x40) ∧ ¬ (0x48 ≤ (0x1F#7).toNat ∧ (0x1F#7).toNat < 0x50) ∧
      ¬ (0x48 ≤ (0x50#7).toNat ∧ (0x50#7).toNat < 0x50) := by
  exact ⟨⟨_, rfl⟩, ⟨_, rfl, by decide⟩⟩

theorem witness_ResultRegistersHoldTheLastSuccess :
    (∃ t, exec .spread1 (st false 1#64 0#64 0#64 0#64) = .next t ∧ t.err = false) ∧
    (∃ t, exec .spread1 (st true 0x10000#64 0#64 0#64 0#64) = .next t ∧ t.err = true) ∧
    ∃ (s : State) (r : Reg) (v : Word) (rest : List Event), r ∈ [Reg.res0, Reg.res1, Reg.res2, Reg.res3] ∧
      s.port = .access (writeAccess r v) :: rest := by
  exact ⟨⟨_, rfl, by decide⟩, ⟨_, rfl, by decide⟩, State.at State.reset [.access (writeAccess .res3 1#64)], .res3, 1#64, [], by decide, by decide⟩

theorem witness_OutcomeDependsOnOperandsOnly :
    ∃ (w : Word) (s u t v : State), s ≠ u ∧ s.strict = u.strict ∧
      (∀ i, decode w = .ok i → ∀ r ∈ operandRegs i, s.reg r = u.reg r) ∧
      executeCommand w s = .next t ∧ executeCommand w u = .next v := by
  refine ⟨0x23#64, st false 1#64 2#64 3#64 4#64, st false 1#64 2#64 3#64 5#64, _, _, by decide, by decide, ?_, rfl, rfl⟩
  intro i h
  have hi : i = .enc3 := by
    have h' : decode 0x23#64 = .ok .enc3 := by decide
    rw [h'] at h
    cases h
    rfl
  subst hi
  decide

theorem witness_Spread1SpreadsSixteenBits :
    (∃ s : State, s.strict = true ∧ s.opa.toNat < 2 ^ 16) ∧
    (∃ s : State, s.strict = true ∧ 2 ^ 16 ≤ s.opa.toNat) ∧
    (∃ s : State, s.strict = false ∧ s.opa = 0x10000#64) := by
  exact ⟨⟨st true 0xFFFF#64 0#64 0#64 0#64, by decide⟩,
    ⟨st true 0x10000#64 0#64 0#64 0#64, by decide⟩,
    ⟨st false 0x10000#64 0#64 0#64 0#64, by decide⟩⟩

theorem witness_Spread2SpreadsTenBits :
    (∃ s : State, s.strict = true ∧ s.opa.toNat < 2 ^ 10) ∧
    (∃ s : State, s.strict = true ∧ 2 ^ 10 ≤ s.opa.toNat) ∧
    (∃ s : State, s.strict = false ∧ s.opa = 0x400#64) := by
  exact ⟨⟨st true 0x3FF#64 0#64 0#64 0#64, by decide⟩,
    ⟨st true 0x400#64 0#64 0#64 0#64, by decide⟩,
    ⟨st false 0x400#64 0#64 0#64 0#64, by decide⟩⟩

theorem witness_Spread3SpreadsSixteenBits :
    (∃ s : State, s.strict = true ∧ s.opa.toNat < 2 ^ 16) ∧
    (∃ s : State, s.strict = true ∧ 2 ^ 16 ≤ s.opa.toNat) ∧
    (∃ s : State, s.strict = false ∧ s.opa = 0x10000#64) := by
  exact ⟨⟨st true 0xFFFF#64 0#64 0#64 0#64, by decide⟩,
    ⟨st true 0x10000#64 0#64 0#64 0#64, by decide⟩,
    ⟨st false 0x10000#64 0#64 0#64 0#64, by decide⟩⟩

theorem witness_Gather1CompactsEvenBits :
    (∃ s : State, s.strict = true ∧ s.opa &&& ~~~0x0000000055555555#64 = 0#64) ∧
    (∃ s : State, s.strict = true ∧ (1 % 2 = 1 ∨ 32 ≤ 1) ∧ s.opa.getLsbD 1 = true) ∧
    (∃ s : State, s.strict = true ∧ (32 % 2 = 1 ∨ 32 ≤ 32) ∧ s.opa.getLsbD 32 = true) ∧
    (∃ s : State, s.strict = false ∧ s.opa = 0xAAAAAAAA#64) := by
  exact ⟨⟨st true 0x0000000055555555#64 0#64 0#64 0#64, by decide⟩,
    ⟨st true 0x2#64 0#64 0#64 0#64, by decide⟩,
    ⟨st true 0x100000000#64 0#64 0#64 0#64, by decide⟩,
    ⟨st false 0xAAAAAAAA#64 0#64 0#64 0#64, by decide⟩⟩

theorem witness_Gather2CompactsEveryThirdBit :
    (∃ s : State, s.strict = true ∧ s.opa &&& ~~~0x0000000009249249#64 = 0#64) ∧
    (∃ s : State, s.strict = true ∧ (1 % 3 ≠ 0 ∨ 30 ≤ 1) ∧ s.opa.getLsbD 1 = true) ∧
    (∃ s : State, s.strict = true ∧ (30 % 3 ≠ 0 ∨ 30 ≤ 30) ∧ s.opa.getLsbD 30 = true) ∧
    (∃ s : State, s.strict = false ∧ s.opa = 0x12492492#64) := by
  exact ⟨⟨st true 0x0000000009249249#64 0#64 0#64 0#64, by decide⟩,
    ⟨st true 0x2#64 0#64 0#64 0#64, by decide⟩,
    ⟨st true 0x40000000#64 0#64 0#64 0#64, by decide⟩,
    ⟨st false 0x12492492#64 0#64 0#64 0#64, by decide⟩⟩

theorem witness_Gather3CompactsEveryFourthBit :
    (∃ s : State, s.strict = true ∧ s.opa &&& ~~~0x1111111111111111#64 = 0#64) ∧
    (∃ s : State, s.strict = true ∧ 63 % 4 ≠ 0 ∧ s.opa.getLsbD 63 = true) ∧
    (∃ s : State, s.strict = false ∧ s.opa = 0x0#64) := by
  exact ⟨⟨st true 0x1111111111111111#64 0#64 0#64 0#64, by decide⟩,
    ⟨st true 0x8000000000000000#64 0#64 0#64 0#64, by decide⟩,
    ⟨st false 0x0#64 0#64 0#64 0#64, by decide⟩⟩

theorem witness_Enc2InterleavesTwoWords :
    (∃ s : State, s.opa = 0x0#64 ∧ s.opb = 0x8000000000000000#64) ∧
    (∃ s : State, s.opa = 4#64 ∧ s.opb = 42#64) := by
  exact ⟨⟨st true 0#64 0x8000000000000000#64 0#64 0#64, by decide⟩,
    ⟨st false 4#64 42#64 0#64 0#64, by decide⟩⟩

theorem witness_Enc3InterleavesTenBitTriples :
    (∃ s : State, s.strict = true ∧ s.opa.toNat < 2 ^ 10 ∧ s.opb.toNat < 2 ^ 10 ∧ s.opc.toNat < 2 ^ 10) ∧
    (∃ s : State, s.strict = true ∧ 2 ^ 10 ≤ s.opa.toNat) ∧
    (∃ s : State, s.strict = true ∧ 2 ^ 10 ≤ s.opb.toNat) ∧
    (∃ s : State, s.strict = true ∧ 2 ^ 10 ≤ s.opc.toNat) ∧
    (∃ s : State, s.strict = false ∧ s.opa = 1#64 ∧ s.opb = 2#64 ∧ s.opc = 3#64) := by
  exact ⟨⟨st true 0x3FF#64 0x3FF#64 0x3FF#64 0xFFFFFFFFFFFFFFFF#64, by decide⟩,
    ⟨st true 0x400#64 0#64 0#64 0#64, by decide⟩,
    ⟨st true 0#64 0x400#64 0#64 0#64, by decide⟩,
    ⟨st true 0#64 0#64 0x400#64 0#64, by decide⟩,
    ⟨st false 1#64 2#64 3#64 0#64, by decide⟩⟩

theorem witness_Enc4InterleavesSixteenBitQuads :
    (∃ s : State, s.strict = true ∧ s.opa.toNat < 2 ^ 16 ∧ s.opb.toNat < 2 ^ 16 ∧ s.opc.toNat < 2 ^ 16 ∧ s.opd.toNat < 2 ^ 16) ∧
    (∃ s : State, s.strict = true ∧ 2 ^ 16 ≤ s.opa.toNat) ∧
    (∃ s : State, s.strict = true ∧ 2 ^ 16 ≤ s.opb.toNat) ∧
    (∃ s : State, s.strict = true ∧ 2 ^ 16 ≤ s.opc.toNat) ∧
    (∃ s : State, s.strict = true ∧ 2 ^ 16 ≤ s.opd.toNat) ∧
    (∃ s : State, s.strict = false ∧ s.opa = 1#64 ∧ s.opb = 2#64 ∧ s.opc = 3#64 ∧ s.opd = 4#64) := by
  exact ⟨⟨st true 0xFFFF#64 0xFFFF#64 0xFFFF#64 0xFFFF#64, by decide⟩,
    ⟨st true 0x10000#64 0#64 0#64 0#64, by decide⟩,
    ⟨st true 0#64 0x10000#64 0#64 0#64, by decide⟩,
    ⟨st true 0#64 0#64 0x10000#64 0#64, by decide⟩,
    ⟨st true 0#64 0#64 0#64 0x10000#64, by decide⟩,
    ⟨st false 1#64 2#64 3#64 4#64, by decide⟩⟩

theorem witness_Dec2SplitsA128BitCode :
    (∃ s : State, s.opa = 0x898#64 ∧ s.opb = 0x0#64) ∧
    (∃ s : State, s.opa = 0x0#64 ∧ s.opb = 0x8000000000000000#64) := by
  exact ⟨⟨st true 0x898#64 0#64 0#64 0#64, by decide⟩,
    ⟨st false 0#64 0x8000000000000000#64 0#64 0#64, by decide⟩⟩

theorem witness_Dec3SplitsAThirtyBitCode :
    (∃ s : State, s.strict = true ∧ s.opa.toNat < 2 ^ 30) ∧
    (∃ s : State, s.strict = true ∧ 2 ^ 30 ≤ s.opa.toNat) ∧
    (∃ s : State, s.strict = false ∧ s.opa = 0x40000000#64) := by
  exact ⟨⟨st true 0x3FFFFFFF#64 0#64 0#64 0#64, by decide⟩,
    ⟨st true 0x40000000#64 0#64 0#64 0#64, by decide⟩,
    ⟨st false 0x40000000#64 0#64 0#64 0#64, by decide⟩⟩

theorem witness_Dec4SplitsASixtyFourBitCode :
    (∃ s : State, s.opa = 0x8000000000000000#64) ∧
    (∃ s : State, s.opa = 0x865#64) := by
  exact ⟨⟨st true 0x8000000000000000#64 0#64 0#64 0#64, by decide⟩,
    ⟨st false 0x865#64 0#64 0#64 0#64, by decide⟩⟩

theorem witness_RefusedAccessesChangeNothing :
    (∀ a ∈ [(⟨0x00#7, 4, false, .read⟩ : Access), ⟨0x44#7, 8, false, .write 0x22#64⟩, ⟨0x00#7, 8, true, .read⟩],
      ¬ (a.bytes = 8 ∧ a.offset.toNat % 8 = 0 ∧ a.burst = false) ∧
      (State.at State.reset [.access a]).port = .access a :: []) ∧
    ∀ a ∈ [readAccess .opa, writeAccess .cmd 0x22#64, (⟨0x78#7, 8, false, .read⟩ : Access)],
      (a.bytes = 8 ∧ a.offset.toNat % 8 = 0 ∧ a.burst = false) ∧
      (State.at State.reset [.access a]).port = .access a :: [] := by
  decide

theorem witness_ReservedOffsetsReadZero :
    ∀ o ∈ [0x58#7, 0x78#7],
      (State.at State.reset [.access ⟨o, 8, false, .read⟩]).port = .access ⟨o, 8, false, .read⟩ :: [] ∧
      (State.at State.reset [.access ⟨o, 8, false, .write 1#64⟩]).port = .access ⟨o, 8, false, .write 1#64⟩ :: [] := by
  decide

theorem witness_ReadOnlyRegistersIgnoreWrites :
    ∀ o ∈ [0x20#7, 0x28#7, 0x30#7, 0x38#7, 0x48#7],
      (State.at State.reset [.access ⟨o, 8, false, .write 1#64⟩]).port = .access ⟨o, 8, false, .write 1#64⟩ :: [] := by
  decide

theorem witness_EffectsOfAccesses :
    (∃ (s : State) (o : BitVec 7) (v : Word), (o, v) ∈ [(0x00#7, s.opa), (0x50#7, s.ctrlWord), (0x78#7, (0#64 : Word))]) ∧
    (∀ o ∈ [0x00#7, 0x08#7, 0x10#7, 0x18#7, 0x50#7, 0x40#7, 0x20#7, 0x78#7],
      (State.at State.reset [.access ⟨o, 8, false, .write 3#64⟩]).port = .access ⟨o, 8, false, .write 3#64⟩ :: []) ∧
    ∃ t, executeCommand 0x22#64 (st false 4#64 42#64 0#64 0#64) = .next t := by
  exact ⟨⟨State.reset, 0x78#7, 0#64, by decide⟩, by decide, ⟨_, rfl⟩⟩

theorem witness_CtrlSelectsMaskingOrStrictMode :
    (State.at State.reset [.access (writeAccess .ctrl 3#64)]).port = .access (writeAccess .ctrl 3#64) :: [] ∧
    (st false 0x400#64 0#64 0#64 0#64).strict = false ∧ (st true 0x400#64 0#64 0#64 0#64).strict = true ∧
    (∃ r ∈ operandRegs .enc3, (st true 0#64 0#64 0x400#64 0#64).reg r &&& ~~~ domainMask .enc3 ≠ 0#64) ∧
    ∀ r ∈ operandRegs .enc3, (st true 0x3FF#64 0x3FF#64 0x3FF#64 0x400#64).reg r &&& ~~~ domainMask .enc3 = 0#64 := by
  exact ⟨rfl, by decide, by decide, ⟨.opc, by decide, by decide⟩, by decide⟩

theorem witness_WriteThenRead :
    ∀ r ∈ [Reg.opa, Reg.cmd, Reg.ctrl, Reg.res0, Reg.status],
      (State.at State.reset [.access (writeAccess r 0x101#64), .access (readAccess r)]).port =
        .access (writeAccess r 0x101#64) :: .access (readAccess r) :: [] := by
  decide

theorem witness_ReservedBitsReadZeroOrAreIllegal :
    (∃ u t : State, (0x3#64).getLsbD 0 = (0xFFFFFFFFFFFFFFFF#64).getLsbD 0 ∧
      step { State.reset with port := [.access (writeAccess .ctrl 0x3#64)] } = .next t ∧
      step { State.reset with port := [.access (writeAccess .ctrl 0xFFFFFFFFFFFFFFFF#64)] } = .next u) ∧
    ∀ w ∈ [0x101#64, 0x8000000000000001#64], (w.extractLsb' 8 56 ≠ 0#56) ∧
      (State.at State.reset [.access (writeAccess .cmd w)]).port = .access (writeAccess .cmd w) :: [] := by
  refine ⟨⟨_, _, by decide, rfl, rfl⟩, ?_⟩
  simp [State.at]

theorem witness_OnlyCommandWritesExecute :
    ∃ (s t : State) (a : Access) (rest : List Event), s.port = .access a :: rest ∧ step s = .next t ∧
      ¬ (a.bytes = 8 ∧ a.burst = false ∧ a.offset = 0x40#7 ∧ ∃ w, a.direction = .write w) ∧
      a.offset ∉ [0x00#7, 0x08#7, 0x10#7, 0x18#7, 0x50#7] := by
  exact ⟨State.at State.reset [.access ⟨0x40#7, 4, false, .write 0x22#64⟩], _, ⟨0x40#7, 4, false, .write 0x22#64⟩, [], by decide, rfl,
    by simp, by decide⟩

theorem witness_WindowIsLittleEndian :
    (7 < 8 ∧ 0x58 ≤ (0x58#7).toNat ∧ 0x58 ≤ (0x7F#7).toNat) ∧
    (State.at State.reset [.access (readAccess .status)]).port = .access (readAccess .status) :: [] ∧
    ∀ r ∈ [Reg.opa, Reg.opb, Reg.opc, Reg.opd, Reg.cmd],
      (State.at State.reset [.access (writeAccess r 0x0123456789ABCDEF#64)]).port =
        .access (writeAccess r 0x0123456789ABCDEF#64) :: [] := by
  decide

theorem witness_PortOrderIsEffectOrder :
    ∃ (s : State) (w : Word) (r : Reg) (rest : List Event),
      s.port = .access (writeAccess .cmd w) :: .access (readAccess r) :: rest := by
  exact ⟨State.at State.reset [.access (writeAccess .cmd 0x22#64), .access (readAccess .status)], 0x22#64, .status, [], by decide⟩

theorem witness_NoHazardAfterACommand :
    ∃ (s : State) (w v : Word) (r : Reg) (rest : List Event), r ≠ .cmd ∧
      s.port = .access (writeAccess .cmd w) :: .access (writeAccess r v) :: rest := by
  exact ⟨State.at State.reset [.access (writeAccess .cmd 0x22#64), .access (writeAccess .opa 9#64)], 0x22#64, 9#64, .opa, [],
    by decide, by decide⟩

theorem witness_NothingHappensWithoutTheHost :
    State.reset.port = [] := by
  decide

theorem witness_ResetClearsEveryRegister :
    ∃ (s : State) (l : List Access) (rest : List Event), s.opa ≠ 0#64 ∧ s.port = .reset l :: rest := by
  exact ⟨State.at (st true 7#64 0#64 0#64 0#64) [.reset [readAccess .opa]], [readAccess .opa], [], by decide, by decide⟩

theorem witness_ResetAbandonsAccesses :
    ∃ (s u : State) (l l' : List Access) (rest : List Event), l ≠ l' ∧ s.port = .reset l :: rest ∧ u.port = .reset l' :: rest := by
  exact ⟨State.at State.reset [.reset []], State.at State.reset [.reset [readAccess .opa]], [], [readAccess .opa], [], by decide, by decide, by decide⟩

theorem witness_StepKeepsInv :
    ∃ s t : State, s.Inv ∧ step s = .next t ∧ t ≠ s := by
  refine ⟨State.at State.reset [.access (writeAccess .cmd 0x22#64)], _, ⟨?_, ?_, .spread1, ?_⟩, rfl, by decide⟩
  · intro _; unfold Untouched; decide
  · intro h; exact absurd h (by decide)
  · unfold ResultsFit; decide

theorem witness_PlacementLaws :
    ∀ j, (0x5 : Nat).testBit j = true → (0x5 : Nat).testBit j = true := by
  exact fun _ h => h

theorem witness_InterleavingLanesAreDisjoint :
    1 < [5, 6, 7].length ∧ 2 < [5, 6, 7].length ∧ 1 ≠ 2 ∧ 9 < 10 ∧ 10 * [5, 6, 7].length ≤ 30 := by
  decide

theorem witness_SpreaderLaws :
    (Instr.spread2, 2, 10) ∈ [(Instr.spread1, 1, 16), (Instr.spread2, 2, 10), (Instr.spread3, 3, 16)] ∧
    (st false 0x3FF#64 0#64 0#64 0#64).strict = false := by
  decide

theorem witness_SpreadGatherRoundTrip :
    (Instr.spread2, Instr.gather2, 2, 10) ∈
      [(Instr.spread1, Instr.gather1, 1, 16), (Instr.spread2, Instr.gather2, 2, 10), (Instr.spread3, Instr.gather3, 3, 16)] ∧
    (st false 0x400#64 0#64 0#64 0#64).strict = false := by
  decide

theorem witness_EncodeDecodeRoundTrip :
    (st false 0xFFFF#64 0x10000#64 0x400#64 1#64).strict = false := by
  decide

theorem witness_EncoderLaws :
    (st true 0#64 0#64 0#64 0#64).opa = 0#64 ∧ (st true 0#64 0#64 0#64 0#64).opd = 0#64 ∧
    (st true 0x3FF#64 0x3FF#64 0x3FF#64 0#64).opc = 0x3FF#64 ∧
    (0x3FE#64).toNat < (0x3FF#64).toNat ∧ (0x3FF#64).toNat < 2 ^ 10 ∧
    (0xFFFE#64).toNat < (0xFFFF#64).toNat ∧ (0xFFFF#64).toNat < 2 ^ 16 ∧
    (∃ t u, exec .enc2 { st true 0#64 0#64 0#64 0#64 with opa := 0xFFFE#64 } = .next t ∧
      exec .enc2 { st true 0#64 0#64 0#64 0#64 with opa := 0xFFFF#64 } = .next u) ∧
    (∃ t u, exec .enc3 { st true 0#64 0#64 0#64 0#64 with opc := 0x3FE#64 } = .next t ∧
      exec .enc3 { st true 0#64 0#64 0#64 0#64 with opc := 0x3FF#64 } = .next u ∧ t.err = false ∧ u.err = false) ∧
    (∃ t u, exec .enc4 { st true 0#64 0#64 0#64 0#64 with opd := 0xFFFE#64 } = .next t ∧
      exec .enc4 { st true 0#64 0#64 0#64 0#64 with opd := 0xFFFF#64 } = .next u ∧ t.err = false ∧ u.err = false) ∧
    (st true 0x7FFF#64 0#64 0#64 0#64).opb = 0#64 ∧ (st true 0x8000#64 0#64 0#64 0#64).opa = 0x8000#64 := by
  exact ⟨by decide, by decide, by decide, by decide, by decide, by decide, by decide, ⟨_, _, rfl, rfl⟩,
    ⟨_, _, rfl, rfl, by decide⟩, ⟨_, _, rfl, rfl, by decide⟩, by decide, by decide⟩

theorem witness_SwarSpreadersConform :
    (st false 0x3FF#64 0#64 0#64 0#64).strict = false ∧ swarSpread2.passes[3]? = some ⟨2, 0x09249249⟩ := by
  decide

theorem witness_SwarGatherersConform :
    (st false 0x3FF#64 0#64 0#64 0#64).strict = false ∧ swarGather2.passes[0]? = some ⟨2, 0x030C30C3⟩ := by
  decide

theorem witness_Enc2ClosedForm :
    63 < 64 ∧ enc2Iterations (0x10000#64).toNat (0x0#64).toNat ≤ 2 := by
  decide

theorem witness_Dec2ClosedForm :
    63 < 64 ∧ dec2Iterations (0x100000000#128).toNat ≤ 2 := by
  decide

theorem witness_InstancesShareNothing :
    (0 : Nat) ≠ 1 ∧ ([⟨0, State.reset⟩, ⟨128, State.reset⟩] : List Placed)[1]? = some ⟨128, State.reset⟩ := by
  decide

theorem witness_TransactionsReachOneWindow :
    windowOffset 128 (128 + 0x7F) = some 0x7F#7 ∧ windowOffset 128 256 = none ∧
    Placed.aligned ⟨128, State.reset⟩ = true ∧ Placed.aligned ⟨256, State.reset⟩ = true ∧ (128 : Nat) ≠ 256 ∧
    windowOffset 128 0xC0 ≠ none := by
  decide

theorem witness_PseudoInstructionsRunTheirCommand :
    (Line.pseudo .enc3 [1#64, 2#64, 3#64]).expand =
      some [writeAccess .opa 1#64, writeAccess .opb 2#64, writeAccess .opc 3#64, writeAccess .cmd 0x23#64] := by
  decide

theorem witness_NamesStandForCommands :
    (Instr.spread2, "SPREAD2", "part1by2") ∈ [(Instr.spread1, "SPREAD1", "part1by1"), (Instr.spread2, "SPREAD2", "part1by2")] ∧
    "Part1By2".toList.map Char.toLower = "part1by2".toList.map Char.toLower ∧
    "sPrEaD2".toList.map Char.toLower = "SPREAD2".toList.map Char.toLower := by
  decide

end Sys2Proof.Tests
end

section
/-! SUPPORT. What a command's outcome depends on (00_scope.md rule R16): a command word fixes a body, a body reads STRICT
and the command's operand registers, and how a command ends is fixed by what its body gave. -/

namespace Sys2Proof.Machine

/-- The body of a command, the one thing in which the arms of exec differ (60_exceptions.md rule R161: Body_d). -/
def commandBody : Instr → State → Body
  | .spread1 => spreadBody 1 16
  | .spread2 => spreadBody 2 10
  | .spread3 => spreadBody 3 16
  | .gather1 => gatherBody 1 16
  | .gather2 => gatherBody 2 10
  | .gather3 => gatherBody 3 16
  | .enc2 => enc2Body
  | .enc3 => fun s => encLanesBody 10 [s.opa, s.opb, s.opc] s
  | .enc4 => fun s => encLanesBody 16 [s.opa, s.opb, s.opc, s.opd] s
  | .dec2 => dec2Body
  | .dec3 => dec3Body
  | .dec4 => dec4Body

theorem exec_eq_complete (i : Instr) (s : State) : exec i s = .next (s.complete (commandBody i s)) := by
  cases i <;> rfl

/-- What executing a word gives before it is written to the registers: its command's body, or ILLEGAL_CMD
(60_exceptions.md rules R161 and R162). -/
def wordBody (w : Word) (s : State) : Body :=
  match decode w with
  | .ok i => commandBody i s
  | .error _ => .error .illegalCmd

theorem wordBody_of_decode_ok {w : Word} {i : Instr} (h : decode w = .ok i) (s : State) :
    wordBody w s = commandBody i s := by
  simp [wordBody, h]

theorem wordBody_of_decode_error {w : Word} {e : IllegalWord} (h : decode w = .error e) (s : State) :
    wordBody w s = .error .illegalCmd := by
  simp [wordBody, h]

theorem executeCommand_eq_complete (w : Word) (s : State) :
    executeCommand w s = .next (s.complete (wordBody w s)) := by
  rcases executeCommand_cases w s with ⟨i, hi, hexec⟩ | ⟨e, he, hexec⟩
  · rw [hexec, exec_eq_complete, wordBody_of_decode_ok hi]
  · rw [hexec, wordBody_of_decode_error he, State.complete_error]

/-- Of the state, a checking body reads only STRICT. -/
theorem strictBody_congr {s u : State} (hstrict : s.strict = u.strict) (outside : Bool) (r : Results) :
    strictBody s outside r = strictBody u outside r := by
  simp only [strictBody, hstrict]

theorem spreadBody_congr {s u : State} (hstrict : s.strict = u.strict) (ha : s.opa = u.opa) (K W : Nat) :
    spreadBody K W s = spreadBody K W u := by
  simp only [spreadBody, ha, strictBody_congr hstrict]

theorem gatherBody_congr {s u : State} (hstrict : s.strict = u.strict) (ha : s.opa = u.opa) (K W : Nat) :
    gatherBody K W s = gatherBody K W u := by
  simp only [gatherBody, ha, strictBody_congr hstrict]

theorem encLanesBody_congr {s u : State} (hstrict : s.strict = u.strict) (W : Nat) (vs : List Word) :
    encLanesBody W vs s = encLanesBody W vs u :=
  strictBody_congr hstrict _ _

/-- A command's body reads STRICT and the operand registers of 30_encoding.md rule R62. -/
theorem commandBody_congr {i : Instr} {s u : State} (hstrict : s.strict = u.strict)
    (hregs : ∀ r ∈ operandRegs i, s.reg r = u.reg r) : commandBody i s = commandBody i u := by
  cases i with
  | spread1 | spread2 | spread3 => exact spreadBody_congr hstrict (hregs .opa (by decide)) _ _
  | gather1 | gather2 | gather3 => exact gatherBody_congr hstrict (hregs .opa (by decide)) _ _
  | enc2 =>
    have ha : s.opa = u.opa := hregs .opa (by decide)
    have hb : s.opb = u.opb := hregs .opb (by decide)
    simp only [commandBody, enc2Body, ha, hb]
  | enc3 =>
    have ha : s.opa = u.opa := hregs .opa (by decide)
    have hb : s.opb = u.opb := hregs .opb (by decide)
    have hc : s.opc = u.opc := hregs .opc (by decide)
    simp only [commandBody, ha, hb, hc, encLanesBody_congr hstrict]
  | enc4 =>
    have ha : s.opa = u.opa := hregs .opa (by decide)
    have hb : s.opb = u.opb := hregs .opb (by decide)
    have hc : s.opc = u.opc := hregs .opc (by decide)
    have hd : s.opd = u.opd := hregs .opd (by decide)
    simp only [commandBody, ha, hb, hc, hd, encLanesBody_congr hstrict]
  | dec2 =>
    have ha : s.opa = u.opa := hregs .opa (by decide)
    have hb : s.opb = u.opb := hregs .opb (by decide)
    simp only [commandBody, dec2Body, State.code128, ha, hb]
  | dec3 =>
    have ha : s.opa = u.opa := hregs .opa (by decide)
    simp only [commandBody, dec3Body, ha, strictBody_congr hstrict]
  | dec4 =>
    have ha : s.opa = u.opa := hregs .opa (by decide)
    simp only [commandBody, dec4Body, ha]

/-- A legal word's command reads its operands; an illegal word raises ILLEGAL_CMD before any is read (60_exceptions.md
rule R164). -/
theorem wordBody_congr {w : Word} {s u : State} (hstrict : s.strict = u.strict)
    (hregs : ∀ i, decode w = .ok i → ∀ r ∈ operandRegs i, s.reg r = u.reg r) : wordBody w s = wordBody w u := by
  cases h : decode w with
  | ok i => rw [wordBody_of_decode_ok h, wordBody_of_decode_ok h, commandBody_congr hstrict (hregs i h)]
  | error e => rw [wordBody_of_decode_error h, wordBody_of_decode_error h]

/-- The end of a command writes all of STATUS, so STATUS tells nothing of the state before. -/
theorem State.complete_statusWord (b : Body) (s u : State) : (s.complete b).statusWord = (u.complete b).statusWord := by
  cases b <;> rfl

/-- The end of a successful command writes all four result registers (60_exceptions.md rule R166). -/
theorem State.complete_results {b : Body} {s : State} (u : State) (hok : (s.complete b).err = false) :
    (s.complete b).res0 = (u.complete b).res0 ∧ (s.complete b).res1 = (u.complete b).res1 ∧
    (s.complete b).res2 = (u.complete b).res2 ∧ (s.complete b).res3 = (u.complete b).res3 := by
  cases b with
  | ok r => simp
  | error e => simp at hok

/-- Settles O14: the two states give the word the same body, and the outcome is a function of the body. -/
theorem outcomeDependsOnOperandsOnly : Obligations.OutcomeDependsOnOperandsOnly := by
  unfold Obligations.OutcomeDependsOnOperandsOnly
  intro w s u t v hstrict hregs ht hv
  rw [executeCommand_eq_complete] at ht hv
  rw [← wordBody_congr hstrict hregs] at hv
  cases ht
  cases hv
  exact ⟨State.complete_statusWord _ s u, State.complete_results u⟩

end Sys2Proof.Machine
end

section
/-! SUPPORT. The lane-0 masks and the laws of the placement functions (00_scope.md rules R13 and R14), bit by bit. -/

namespace Sys2Proof.Machine

/-- Bit `j` of `LANE0(K, W)` (00_scope.md rule R13). -/
theorem testBit_lane0 (K W j : Nat) :
    (lane0 K W).testBit j = (decide (j % (K + 1) = 0) && decide (j / (K + 1) < W)) := by
  rw [lane0, testBit_spread, Nat.testBit_two_pow_sub_one, Bool.and_assoc, Bool.and_self]

theorem testBit_lane0_iff (K W j : Nat) : (lane0 K W).testBit j = true ↔ ∃ i, i < W ∧ j = i * (K + 1) := by
  rw [testBit_lane0, Bool.and_eq_true, decide_eq_true_iff, decide_eq_true_iff]
  constructor
  · rintro ⟨hmod, hlt⟩
    exact ⟨j / (K + 1), hlt, (Nat.div_mul_cancel (Nat.dvd_of_mod_eq_zero hmod)).symm⟩
  · rintro ⟨i, hi, rfl⟩
    exact ⟨Nat.mul_mod_left _ _, by rwa [Nat.mul_div_cancel _ K.succ_pos]⟩

/-- Settles O45: the bits of `LANE0(K, W)` for every K and W; the table's three values by evaluation. -/
theorem laneMasks : Obligations.LaneMasks :=
  ⟨testBit_lane0_iff, by decide, by decide, by decide⟩

/-- Bit `i` of an operand goes to bit `i*(K+1)` (00_scope.md rule R11). -/
theorem testBit_spread_mul (n K W i : Nat) :
    (spread n K W).testBit (i * (K + 1)) = (decide (i < W) && n.testBit i) := by
  simp [testBit_spread, Nat.mul_div_cancel i K.succ_pos]

theorem gather_spread (n K W : Nat) : gather (spread n K W) K W = n % 2 ^ W := by
  refine Nat.eq_of_testBit_eq fun i => ?_
  rw [testBit_gather, testBit_spread_mul, Nat.testBit_mod_two_pow, ← Bool.and_assoc, Bool.and_self]

/-- Spreading reads bit `j / (K + 1)` of the gathered operand, its bit `j` where `j` is a lane-0 position. -/
theorem spread_gather (m K W : Nat) : spread (gather m K W) K W = m &&& lane0 K W := by
  refine Nat.eq_of_testBit_eq fun j => ?_
  rw [testBit_spread, testBit_gather, Nat.testBit_and, testBit_lane0]
  by_cases hmod : j % (K + 1) = 0
  · rw [Nat.div_mul_cancel (Nat.dvd_of_mod_eq_zero hmod)]
    cases m.testBit j <;> simp [hmod]
  · simp [hmod]

theorem testBit_lane0_of_testBit_spread {n K W j : Nat} (h : (spread n K W).testBit j = true) :
    (lane0 K W).testBit j = true := by
  rw [testBit_spread, Bool.and_eq_true] at h
  rw [testBit_lane0]
  exact h.1

theorem spread_mod_two_pow (n K W : Nat) : spread (n % 2 ^ W) K W = spread n K W := by
  refine Nat.eq_of_testBit_eq fun j => ?_
  rw [testBit_spread, testBit_spread, Nat.testBit_mod_two_pow]
  by_cases hlt : j / (K + 1) < W <;> simp [hlt]

/-- Masking to lane 0 is a spread of the gathered operand, and gathering that again keeps all `W` bits. -/
theorem gather_and_lane0 (m K W : Nat) : gather (m &&& lane0 K W) K W = gather m K W := by
  rw [← spread_gather, gather_spread, Nat.mod_eq_of_lt (gather_lt m K W)]

theorem spread_of_zero (K W : Nat) : spread 0 K W = 0 :=
  Nat.eq_of_testBit_eq fun j => by simp [testBit_spread]

theorem gather_of_zero (K W : Nat) : gather 0 K W = 0 :=
  Nat.eq_of_testBit_eq fun i => by simp [testBit_gather]

section Monotone

variable {n m : Nat} (hle : ∀ j, n.testBit j = true → m.testBit j = true)
include hle

theorem spread_mono_bits (K W j : Nat) (h : (spread n K W).testBit j = true) : (spread m K W).testBit j = true := by
  rw [testBit_spread, Bool.and_eq_true] at h ⊢
  exact ⟨h.1, hle _ h.2⟩

theorem gather_mono_bits (K W i : Nat) (h : (gather n K W).testBit i = true) : (gather m K W).testBit i = true := by
  rw [testBit_gather, Bool.and_eq_true] at h ⊢
  exact ⟨h.1, hle _ h.2⟩

end Monotone

/-- Settles O46, one lemma for each law of 00_scope.md rule R14. -/
theorem placementLaws : Obligations.PlacementLaws := fun n m K W =>
  ⟨gather_spread n K W, spread_gather m K W, fun _ => testBit_lane0_of_testBit_spread,
    (spread_mod_two_pow n K W).symm, (gather_and_lane0 m K W).symm, spread_of_zero K W, gather_of_zero K W,
    fun hle => ⟨spread_mono_bits hle K W, gather_mono_bits hle K W⟩⟩

end Sys2Proof.Machine
end

section
/-! SUPPORT. The lanes of an interleaving (00_scope.md rule R15): where a coordinate's bits go, that two lanes share none,
and that any way of joining disjoint numbers joins them to the same code. -/

namespace Sys2Proof.Machine

theorem testBit_interleave_lane (W d i : Nat) (vs : List Nat) (hd : d < vs.length) (hi : i < W) :
    (interleave W vs).testBit (d + i * vs.length) = (vs.getD d 0).testBit i := by
  have hdiv : (d + i * vs.length) / vs.length = i := by
    rw [Nat.add_mul_div_right _ _ (by omega), Nat.div_eq_of_lt hd, Nat.zero_add]
  have hmod : (d + i * vs.length) % vs.length = d := by
    rw [Nat.add_mul_mod_self_right, Nat.mod_eq_of_lt hd]
  rw [testBit_interleave _ _ _ (List.ne_nil_of_length_pos (by omega)), hdiv, hmod]
  simp [hi]

theorem testBit_interleave_above (W j : Nat) (vs : List Nat) (hj : W * vs.length ≤ j) :
    (interleave W vs).testBit j = false := by
  rcases eq_or_ne vs [] with rfl | hvs
  · simp [interleave, lanesFrom_nil]
  · have habove : W ≤ j / vs.length := (Nat.le_div_iff_mul_le (List.length_pos_iff.mpr hvs)).mpr hj
    simp [testBit_interleave _ _ _ hvs, habove]

/-- Lane `d` sets only bits that are `d` modulo the number of lanes. -/
theorem lane_and_lane_eq_zero (u v K W : Nat) {d e : Nat} (hd : d < K + 1) (he : e < K + 1) (hde : d ≠ e) :
    (spread u K W <<< d) &&& (spread v K W <<< e) = 0 := by
  refine Nat.eq_of_testBit_eq fun j => ?_
  rw [Nat.testBit_and, testBit_lane _ _ _ _ _ hd, testBit_lane _ _ _ _ _ he, Nat.zero_testBit]
  by_cases h : j % (K + 1) = d
  · have hne : j % (K + 1) ≠ e := h ▸ hde
    simp [hne]
  · simp [h]

theorem lane_and_lanesFrom_eq_zero (v K W d e : Nat) (vs : List Nat) (hlanes : e + vs.length ≤ K + 1) (hd : d < e) :
    (spread v K W <<< d) &&& lanesFrom K W e vs = 0 := by
  induction vs generalizing e with
  | nil => exact Nat.and_zero _
  | cons w ws ih =>
    have hlen : (w :: ws).length = ws.length + 1 := rfl
    rw [lanesFrom_cons, Nat.and_or_distrib_left, lane_and_lane_eq_zero v w K W (by omega) (by omega) (by omega),
      ih (e + 1) (by omega) (by omega), Nat.or_zero]

theorem xor_eq_or_of_and_eq_zero {a b : Nat} (h : a &&& b = 0) : a ^^^ b = a ||| b := by
  refine Nat.eq_of_testBit_eq fun j => ?_
  have hj : (a.testBit j && b.testBit j) = false := by rw [← Nat.testBit_and, h, Nat.zero_testBit]
  rw [Nat.testBit_xor, Nat.testBit_or]
  revert hj
  cases a.testBit j <;> cases b.testBit j <;> decide

/-- The library has this law for bit vectors; `a + b` bits hold both numbers. -/
theorem add_eq_or_of_and_eq_zero {a b : Nat} (h : a &&& b = 0) : a + b = a ||| b := by
  have hpow : a + b < 2 ^ (a + b) := Nat.lt_two_pow_self
  have ha : (BitVec.ofNat (a + b) a).toNat = a := by rw [BitVec.toNat_ofNat, Nat.mod_eq_of_lt (by omega)]
  have hb : (BitVec.ofNat (a + b) b).toNat = b := by rw [BitVec.toNat_ofNat, Nat.mod_eq_of_lt (by omega)]
  have hdisj : BitVec.ofNat (a + b) a &&& BitVec.ofNat (a + b) b = 0#(a + b) :=
    BitVec.eq_of_toNat_eq (by rw [BitVec.toNat_and, ha, hb, h, BitVec.toNat_zero])
  calc a + b = (BitVec.ofNat (a + b) a + BitVec.ofNat (a + b) b).toNat := by
        rw [BitVec.toNat_add_of_and_eq_zero hdisj, ha, hb]
    _ = a ||| b := by rw [BitVec.add_eq_or_of_and_eq_zero _ _ hdisj, BitVec.toNat_or, ha, hb]

/-- Any operation that joins disjoint numbers as OR does joins the lanes to the same code. -/
theorem foldr_lanes_eq_lanesFrom {op : Nat → Nat → Nat} (hop : ∀ a b, a &&& b = 0 → op a b = a ||| b) (K W d : Nat)
    (vs : List Nat) (hlanes : d + vs.length ≤ K + 1) :
    ((vs.zipIdx d).map fun p => spread p.1 K W <<< p.2).foldr op 0 = lanesFrom K W d vs := by
  induction vs generalizing d with
  | nil => rfl
  | cons v vs ih =>
    have hlen : (v :: vs).length = vs.length + 1 := rfl
    rw [List.zipIdx_cons, List.map_cons, List.foldr_cons, ih (d + 1) (by omega), lanesFrom_cons,
      hop _ _ (lane_and_lanesFrom_eq_zero v K W d (d + 1) vs (by omega) (by omega))]

theorem interleave_eq_foldr {op : Nat → Nat → Nat} (hop : ∀ a b, a &&& b = 0 → op a b = a ||| b) (W : Nat)
    (vs : List Nat) :
    interleave W vs = (vs.zipIdx.map fun p => spread p.1 (vs.length - 1) W <<< p.2).foldr op 0 :=
  (foldr_lanes_eq_lanesFrom hop (vs.length - 1) W 0 vs (by omega)).symm

/-- Settles O47: bits and lanes from where each bit goes; the three joins from one lemma. -/
theorem interleavingLanesAreDisjoint : Obligations.InterleavingLanesAreDisjoint := fun W vs =>
  ⟨fun d i => testBit_interleave_lane W d i vs, fun j => testBit_interleave_above W j vs,
    fun _ _ u v hd he => lane_and_lane_eq_zero u v (vs.length - 1) W (by omega) (by omega),
    interleave_eq_foldr (fun _ _ _ => rfl) W vs,
    interleave_eq_foldr (fun _ _ => xor_eq_or_of_and_eq_zero) W vs,
    interleave_eq_foldr (fun _ _ => add_eq_or_of_and_eq_zero) W vs⟩

end Sys2Proof.Machine
end

section
/-! SUPPORT. A word selects the command whose word it is, and no other (30_encoding.md rules R65 to R67). -/

namespace Sys2Proof.Machine

theorem decode_encode (i : Instr) : decode (encode i) = .ok i := by
  cases i <;> rfl

theorem bits_ofBits (b : BitVec 2) : (CmdClass.ofBits b).bits = b := by
  revert b
  decide

/-- A word is put together again from its fields (30_encoding.md rule R61). -/
theorem word_fieldsOf (w : Word) : (fieldsOf w).word = w := by
  refine BitVec.eq_of_getLsbD_eq fun j hj => ?_
  simp only [CommandFields.word, fieldsOf, bits_ofBits, BitVec.getLsbD_append, BitVec.getLsbD_extractLsb']
  by_cases h4 : j < 4
  · simp [h4]
  · by_cases h6 : j - 4 < 2
    · have hsum : 4 + (j - 4) = j := by omega
      simp [h4, h6, hsum]
    · by_cases h8 : j - 4 - 2 < 2
      · have hsum : 6 + (j - 4 - 2) = j := by omega
        simp [h4, h6, h8, hsum]
      · have hsum : 8 + (j - 4 - 2 - 2) = j := by omega
        have hlt : j - 4 - 2 - 2 < 56 := by omega
        simp [h4, h6, h8, hsum, hlt]

/-- The decoder answers a command for that command's fields only. -/
theorem eq_encodeFields_of_decodeFields {f : CommandFields} {i : Instr} (h : decodeFields f = .ok i) :
    f = encodeFields i := by
  obtain ⟨rsvd, pfx, cls, param⟩ := f
  have hparam : ∀ n, n < 16 → param.toNat = n → param = BitVec.ofNat 4 n := fun n hn hp =>
    BitVec.eq_of_toNat_eq (by rw [BitVec.toNat_ofNat, hp, Nat.mod_eq_of_lt hn])
  simp only [decodeFields] at h
  split at h
  case isTrue => cases h
  case isFalse hrsvd =>
    split at h
    case isTrue => cases h
    case isFalse hpfx =>
      obtain rfl : rsvd = 0#56 := by simpa using hrsvd
      obtain rfl : pfx = 0#2 := by simpa using hpfx
      split at h
      case h_13 => cases h
      all_goals
        rename_i hp
        cases h
        rw [hparam _ (by decide) hp]
        rfl

theorem decode_eq_ok_iff {w : Word} {i : Instr} : decode w = .ok i ↔ w = encode i := by
  constructor
  · intro h
    rw [encode, ← eq_encodeFields_of_decodeFields h, word_fieldsOf]
  · rintro rfl
    exact decode_encode i

theorem encode_injective {i j : Instr} (h : encode i = encode j) : i = j := by
  have hok : decode (encode i) = .ok j := decode_eq_ok_iff.mpr h
  rw [decode_encode] at hok
  exact Except.ok.inj hok

end Sys2Proof.Machine
end

section
/-! SUPPORT. Words and masks: the bits of a register under `&&&` and `~~~`, for every exact number and mask. -/

namespace Sys2Proof.Machine

theorem toNat_and_ofExact (v : Word) (m : Nat) : (v &&& Word.ofExact m).toNat = v.toNat &&& m := by
  refine Nat.eq_of_testBit_eq fun j => ?_
  rw [BitVec.toNat_and, BitVec.toNat_ofNat, Nat.testBit_and, Nat.testBit_and, Nat.testBit_mod_two_pow]
  by_cases hj : j < 64
  · simp [hj]
  · simp [BitVec.testBit_toNat, BitVec.getLsbD_of_ge v j (by omega)]

theorem toNat_and_lowMask (v : Word) (W : Nat) : (v &&& Word.ofExact (2 ^ W - 1)).toNat = v.toNat % 2 ^ W := by
  rw [toNat_and_ofExact, Nat.and_two_pow_sub_one_eq_mod]

theorem getLsbD_and_not_ofExact (v : Word) (m j : Nat) :
    (v &&& ~~~Word.ofExact m).getLsbD j = (v.getLsbD j && !m.testBit j) := by
  rw [BitVec.getLsbD_and, BitVec.getLsbD_not, BitVec.getLsbD_ofNat]
  by_cases hj : j < 64
  · rw [decide_eq_true hj, Bool.true_and, Bool.true_and]
  · rw [BitVec.getLsbD_of_ge v j (by omega), Bool.false_and, Bool.false_and]

theorem and_not_ofExact_eq_zero_iff (v : Word) (m : Nat) :
    v &&& ~~~Word.ofExact m = 0#64 ↔ ∀ j, v.toNat.testBit j = true → m.testBit j = true := by
  simp only [BitVec.testBit_toNat]
  constructor
  · intro h j hv
    have hbit := getLsbD_and_not_ofExact v m j
    simpa [h, hv] using hbit
  · intro h
    refine BitVec.eq_of_getLsbD_eq fun j _ => ?_
    rw [getLsbD_and_not_ofExact, BitVec.getLsbD_zero]
    cases hv : v.getLsbD j with
    | false => rfl
    | true => rw [h j hv]; rfl

theorem testBit_lowMask_of_lt {n W : Nat} (hn : n < 2 ^ W) (j : Nat) (h : n.testBit j = true) :
    (2 ^ W - 1).testBit j = true := by
  rw [Nat.testBit_two_pow_sub_one, decide_eq_true_iff]
  by_contra hj
  rw [Nat.testBit_lt_two_pow (lt_of_lt_of_le hn (Nat.pow_le_pow_right (by omega) (by omega)))] at h
  cases h

/-- A word lies in the low `W` bits exactly when it is below `2 ^ W`. -/
theorem and_not_lowMask_eq_zero_iff (v : Word) (W : Nat) :
    v &&& ~~~Word.ofExact (2 ^ W - 1) = 0#64 ↔ v.toNat < 2 ^ W := by
  rw [and_not_ofExact_eq_zero_iff]
  refine ⟨fun h => Nat.lt_pow_two_of_testBit _ fun j hj => ?_, testBit_lowMask_of_lt⟩
  by_contra hv
  have hmask := h j (by simpa using hv)
  rw [Nat.testBit_two_pow_sub_one, decide_eq_true_iff] at hmask
  omega

theorem two_pow_le_toNat_iff (W : Nat) (v : Word) : 2 ^ W ≤ v.toNat ↔ v &&& ~~~Word.ofExact (2 ^ W - 1) ≠ 0#64 := by
  rw [Ne, and_not_lowMask_eq_zero_iff, Nat.not_lt]

theorem and_not_allOnes (v : Word) : v &&& ~~~0xFFFFFFFFFFFFFFFF#64 = 0#64 := by
  simp

/-- A narrowed number lies in a mask that holds all its bits. -/
theorem ofExact_and_not_eq_zero {n m : Nat} (h : ∀ j, n.testBit j = true → m.testBit j = true) :
    Word.ofExact n &&& ~~~Word.ofExact m = 0#64 := by
  refine (and_not_ofExact_eq_zero_iff _ _).mpr fun j hj => h j ?_
  rw [BitVec.toNat_ofNat, Nat.testBit_mod_two_pow, Bool.and_eq_true] at hj
  exact hj.2

theorem ofExact_and_not_lowMask_of_lt {n W : Nat} (h : n < 2 ^ W) :
    Word.ofExact n &&& ~~~Word.ofExact (2 ^ W - 1) = 0#64 :=
  ofExact_and_not_eq_zero (testBit_lowMask_of_lt h)

theorem spread_and_not_lane0 (n K W : Nat) :
    Word.ofExact (spread n K W) &&& ~~~Word.ofExact (lane0 K W) = 0#64 :=
  ofExact_and_not_eq_zero fun _ => testBit_lane0_of_testBit_spread

theorem interleave_lt (W : Nat) (vs : List Nat) : interleave W vs < 2 ^ (W * vs.length) :=
  Nat.lt_pow_two_of_testBit _ fun j => testBit_interleave_above W j vs

theorem bitsAbove_bne_zero_iff (v : Word) (W : Nat) : (bitsAbove v W != 0) = true ↔ 2 ^ W ≤ v.toNat := by
  rw [bne_iff_ne, Ne, bitsAbove_eq_zero_iff, Nat.not_lt]

/-- The lanes of an interleaving read the low `W` bits of each coordinate. -/
theorem lanesFrom_map_mod (K W d : Nat) (vs : List Nat) :
    lanesFrom K W d (vs.map (· % 2 ^ W)) = lanesFrom K W d vs := by
  induction vs generalizing d with
  | nil => rfl
  | cons v vs ih => rw [List.map_cons, lanesFrom_cons, lanesFrom_cons, ih, spread_mod_two_pow]

theorem interleave_map_mod (W : Nat) (vs : List Nat) : interleave W (vs.map (· % 2 ^ W)) = interleave W vs := by
  rw [interleave, List.length_map, lanesFrom_map_mod, interleave]

/-- The coordinates of a code read its low `D * W` bits. -/
theorem coordinate_mod {D W n d : Nat} (hd : d < D) : coordinate D W (n % 2 ^ (D * W)) d = coordinate D W n d := by
  refine Nat.eq_of_testBit_eq fun i => ?_
  rw [testBit_coordinate _ _ _ _ _ (by omega), testBit_coordinate _ _ _ _ _ (by omega), Nat.testBit_mod_two_pow]
  by_cases hi : i < W
  · have hlt : d + i * D < D * W := by nlinarith
    simp [hlt]
  · simp [hi]

end Sys2Proof.Machine
end

section
/-! SUPPORT. What each command's body gives: results that fit its masks, or DOMAIN exactly for operands outside its domain
in strict mode (60_exceptions.md rule R163). From it, the three ways a command word ends. -/

namespace Sys2Proof.Machine

/-- Whether the body of a command finds a set bit that the command discards. -/
def operandsOutside (i : Instr) (s : State) : Bool :=
  match i with
  | .spread1 | .spread3 => bitsAbove s.opa 16 != 0
  | .spread2 => bitsAbove s.opa 10 != 0
  | .gather1 => s.opa &&& ~~~Word.ofExact (lane0 1 16) != 0#64
  | .gather2 => s.opa &&& ~~~Word.ofExact (lane0 2 10) != 0#64
  | .gather3 => s.opa &&& ~~~Word.ofExact (lane0 3 16) != 0#64
  | .enc3 => [s.opa, s.opb, s.opc].any fun v => bitsAbove v 10 != 0
  | .enc4 => [s.opa, s.opb, s.opc, s.opd].any fun v => bitsAbove v 16 != 0
  | .dec3 => bitsAbove s.opa 30 != 0
  | .enc2 | .dec2 | .dec4 => false

/-- The results of a command that completes. -/
def commandResults (i : Instr) (s : State) : Results :=
  match i with
  | .spread1 => .one (Word.ofExact (spread s.opa.toNat 1 16))
  | .spread2 => .one (Word.ofExact (spread s.opa.toNat 2 10))
  | .spread3 => .one (Word.ofExact (spread s.opa.toNat 3 16))
  | .gather1 => .one (Word.ofExact (gather s.opa.toNat 1 16))
  | .gather2 => .one (Word.ofExact (gather s.opa.toNat 2 10))
  | .gather3 => .one (Word.ofExact (gather s.opa.toNat 3 16))
  | .enc2 =>
    ⟨Word.ofExact (enc2Code s.opa.toNat s.opb.toNat), Word.ofExact (enc2Code s.opa.toNat s.opb.toNat >>> 64), 0#64, 0#64⟩
  | .enc3 => .one (Word.ofExact (interleave 10 ([s.opa, s.opb, s.opc].map BitVec.toNat)))
  | .enc4 => .one (Word.ofExact (interleave 16 ([s.opa, s.opb, s.opc, s.opd].map BitVec.toNat)))
  | .dec2 =>
    ⟨Word.ofExact (dec2Coordinates s.code128.toNat).1, Word.ofExact (dec2Coordinates s.code128.toNat).2, 0#64, 0#64⟩
  | .dec3 =>
    ⟨Word.ofExact (coordinate 3 10 s.opa.toNat 0), Word.ofExact (coordinate 3 10 s.opa.toNat 1),
      Word.ofExact (coordinate 3 10 s.opa.toNat 2), 0#64⟩
  | .dec4 =>
    ⟨Word.ofExact (coordinate 4 16 s.opa.toNat 0), Word.ofExact (coordinate 4 16 s.opa.toNat 1),
      Word.ofExact (coordinate 4 16 s.opa.toNat 2), Word.ofExact (coordinate 4 16 s.opa.toNat 3)⟩

theorem strictBody_inside {s : State} {outside : Bool} (h : s.strict = false ∨ outside = false) (r : Results) :
    strictBody s outside r = .ok r := by
  rcases h with h | h <;> simp [strictBody, h]

theorem strictBody_outside {s : State} (h : s.strict = true) (r : Results) :
    strictBody s true r = .error .domain := by
  simp [strictBody, h]

/-- Every body is a strict check of its operands; the three with nothing to check always pass it. -/
theorem commandBody_eq_strictBody (i : Instr) (s : State) :
    commandBody i s = strictBody s (operandsOutside i s) (commandResults i s) := by
  cases i with
  | enc2 | dec2 | dec4 => exact (strictBody_inside (.inr rfl) _).symm
  | _ => rfl

theorem operandsOutside_iff (i : Instr) (s : State) : operandsOutside i s = true ↔ OutOfDomain i s := by
  obtain ⟨-, hlane1, hlane2, hlane3⟩ := laneMasks
  cases i with
  | spread1 | spread2 | spread3 | dec3 => exact bitsAbove_bne_zero_iff _ _
  | gather1 => simp only [operandsOutside, OutOfDomain, hlane1, bne_iff_ne]
  | gather2 => simp only [operandsOutside, OutOfDomain, hlane2, bne_iff_ne]
  | gather3 => simp only [operandsOutside, OutOfDomain, hlane3, bne_iff_ne]
  | enc3 | enc4 =>
    simp only [operandsOutside, OutOfDomain, List.any_cons, List.any_nil, Bool.or_eq_true, bitsAbove_bne_zero_iff,
      Bool.false_eq_true, or_false]
  | enc2 | dec2 | dec4 => exact iff_of_false Bool.false_ne_true not_false

/-- A command whose operands are in its domain completes; in strict mode too (60_exceptions.md rule R163). -/
theorem exec_of_inside {i : Instr} {s : State} (h : s.strict = false ∨ ¬ OutOfDomain i s) :
    exec i s = .next (s.succeed (commandResults i s)) := by
  rw [← operandsOutside_iff, Bool.not_eq_true] at h
  rw [exec_eq_complete, commandBody_eq_strictBody, strictBody_inside h, State.complete_ok]

theorem exec_of_outside {i : Instr} {s : State} (hs : s.strict = true) (h : OutOfDomain i s) :
    exec i s = .next (s.raiseError .domain) := by
  rw [exec_eq_complete, commandBody_eq_strictBody, (operandsOutside_iff i s).mpr h, strictBody_outside hs,
    State.complete_error]

/-- A command word succeeds, raises DOMAIN, or is illegal (60_exceptions.md rules R161 to R163). -/
theorem executeCommand_outcome (w : Word) (s : State) :
    (∃ i, w = encode i ∧ (s.strict = false ∨ ¬ OutOfDomain i s) ∧
      executeCommand w s = .next (s.succeed (commandResults i s))) ∨
    (∃ i, w = encode i ∧ s.strict = true ∧ OutOfDomain i s ∧ executeCommand w s = .next (s.raiseError .domain)) ∨
    ((∀ i, w ≠ encode i) ∧ executeCommand w s = .next (s.raiseError .illegalCmd)) := by
  rcases executeCommand_cases w s with ⟨i, hi, hexec⟩ | ⟨e, he, hexec⟩
  · by_cases hout : s.strict = true ∧ OutOfDomain i s
    · exact .inr (.inl ⟨i, decode_eq_ok_iff.mp hi, hout.1, hout.2, hexec.trans (exec_of_outside hout.1 hout.2)⟩)
    · have hin : s.strict = false ∨ ¬ OutOfDomain i s := by rwa [not_and_or, Bool.not_eq_true] at hout
      exact .inl ⟨i, decode_eq_ok_iff.mp hi, hin, hexec.trans (exec_of_inside hin)⟩
  · refine .inr (.inr ⟨fun i hi => ?_, hexec⟩)
    rw [decode_eq_ok_iff.mpr hi] at he
    cases he

theorem outOfDomain_iff_outside_mask (i : Instr) (s : State) :
    OutOfDomain i s ↔ ∃ r ∈ operandRegs i, s.reg r &&& ~~~domainMask i ≠ 0#64 := by
  have h10 : ∀ v : Word, 1024 ≤ v.toNat ↔ v &&& ~~~0x3FF#64 ≠ 0#64 := two_pow_le_toNat_iff 10
  have h16 : ∀ v : Word, 65536 ≤ v.toNat ↔ v &&& ~~~0xFFFF#64 ≠ 0#64 := two_pow_le_toNat_iff 16
  have h30 : ∀ v : Word, 1073741824 ≤ v.toNat ↔ v &&& ~~~0x3FFFFFFF#64 ≠ 0#64 := two_pow_le_toNat_iff 30
  cases i with
  | spread2 | enc3 => simp [OutOfDomain, operandRegs, State.reg, domainMask, h10]
  | spread1 | spread3 | enc4 => simp [OutOfDomain, operandRegs, State.reg, domainMask, h16]
  | dec3 => simp [OutOfDomain, operandRegs, State.reg, domainMask, h30]
  | gather1 | gather2 | gather3 => simp [OutOfDomain, operandRegs, State.reg, domainMask]
  | enc2 | dec2 | dec4 => simp [OutOfDomain, domainMask]

theorem spread_maskedOperand (v : Word) (K W : Nat) :
    spread (v &&& Word.ofExact (2 ^ W - 1)).toNat K W = spread v.toNat K W := by
  rw [toNat_and_lowMask, spread_mod_two_pow]

theorem gather_maskedOperand (v : Word) {K W m : Nat} (hm : lane0 K W = m) :
    gather (v &&& Word.ofExact m).toNat K W = gather v.toNat K W := by
  rw [toNat_and_ofExact, ← hm, gather_and_lane0]

theorem interleave_maskedOperands (W : Nat) (vs : List Word) :
    interleave W ((vs.map (· &&& Word.ofExact (2 ^ W - 1))).map BitVec.toNat) = interleave W (vs.map BitVec.toNat) := by
  have hmod : (vs.map (· &&& Word.ofExact (2 ^ W - 1))).map BitVec.toNat = (vs.map BitVec.toNat).map (· % 2 ^ W) := by
    rw [List.map_map, List.map_map]
    exact List.map_congr_left fun v _ => toNat_and_lowMask v W
  rw [hmod, interleave_map_mod]

theorem coordinate_maskedOperand (v : Word) {D W d : Nat} (hd : d < D) :
    coordinate D W (v &&& Word.ofExact (2 ^ (D * W) - 1)).toNat d = coordinate D W v.toNat d := by
  rw [toNat_and_lowMask, coordinate_mod hd]

theorem State.maskedBy_allOnes (s : State) : s.maskedBy 0xFFFFFFFFFFFFFFFF#64 = s := by
  have hv : ∀ v : Word, v &&& 0xFFFFFFFFFFFFFFFF#64 = v := fun _ => BitVec.and_allOnes
  simp only [State.maskedBy, hv]

/-- A command reads of its operands only the bits of its domain (10_state.md rule R28: silent masking). -/
theorem commandResults_maskedBy (i : Instr) (s : State) :
    commandResults i (s.maskedBy (domainMask i)) = commandResults i s := by
  obtain ⟨-, hlane1, hlane2, hlane3⟩ := laneMasks
  cases i with
  | spread1 => exact congrArg (fun n => Results.one (Word.ofExact n)) (spread_maskedOperand s.opa 1 16)
  | spread2 => exact congrArg (fun n => Results.one (Word.ofExact n)) (spread_maskedOperand s.opa 2 10)
  | spread3 => exact congrArg (fun n => Results.one (Word.ofExact n)) (spread_maskedOperand s.opa 3 16)
  | gather1 => exact congrArg (fun n => Results.one (Word.ofExact n)) (gather_maskedOperand s.opa hlane1)
  | gather2 => exact congrArg (fun n => Results.one (Word.ofExact n)) (gather_maskedOperand s.opa hlane2)
  | gather3 => exact congrArg (fun n => Results.one (Word.ofExact n)) (gather_maskedOperand s.opa hlane3)
  | enc3 => exact congrArg (fun n => Results.one (Word.ofExact n)) (interleave_maskedOperands 10 [s.opa, s.opb, s.opc])
  | enc4 =>
    exact congrArg (fun n => Results.one (Word.ofExact n)) (interleave_maskedOperands 16 [s.opa, s.opb, s.opc, s.opd])
  | dec3 =>
    have hcoord : ∀ d < 3, coordinate 3 10 (s.opa &&& 0x3FFFFFFF#64).toNat d = coordinate 3 10 s.opa.toNat d :=
      fun _ => coordinate_maskedOperand s.opa
    simp only [commandResults, State.maskedBy, domainMask, hcoord, Nat.reduceLT]
  | enc2 | dec2 | dec4 => rw [domainMask, State.maskedBy_allOnes]

theorem spread_fits (n : Nat) {K W m : Nat} (hm : lane0 K W = m) :
    Word.ofExact (spread n K W) &&& ~~~Word.ofExact m = 0#64 :=
  hm ▸ spread_and_not_lane0 n K W

theorem gather_fits (n K W : Nat) : Word.ofExact (gather n K W) &&& ~~~Word.ofExact (2 ^ W - 1) = 0#64 :=
  ofExact_and_not_lowMask_of_lt (gather_lt n K W)

theorem interleave_fits {W k : Nat} (vs : List Nat) (hk : W * vs.length = k) :
    Word.ofExact (interleave W vs) &&& ~~~Word.ofExact (2 ^ k - 1) = 0#64 :=
  ofExact_and_not_lowMask_of_lt (hk ▸ interleave_lt W vs)

/-- Of a command that defines only output 0, only that output has bits to check. -/
theorem resultsFit_succeed_one {i : Instr} {r m : Word} (hmask : resultMask i = .one m) (hr : r &&& ~~~m = 0#64)
    (s : State) : ResultsFit i (s.succeed (.one r)) := by
  rw [ResultsFit, hmask]
  exact ⟨hr, BitVec.zero_and, BitVec.zero_and, BitVec.zero_and⟩

/-- The results of a command set only the bits that its corner cases allow. -/
theorem commandResults_fit (i : Instr) (s : State) : ResultsFit i (s.succeed (commandResults i s)) := by
  obtain ⟨-, hlane1, hlane2, hlane3⟩ := laneMasks
  cases i with
  | spread1 => exact resultsFit_succeed_one rfl (spread_fits _ hlane1) s
  | spread2 => exact resultsFit_succeed_one rfl (spread_fits _ hlane2) s
  | spread3 => exact resultsFit_succeed_one rfl (spread_fits _ hlane3) s
  | gather1 => exact resultsFit_succeed_one rfl (gather_fits _ 1 16) s
  | gather2 => exact resultsFit_succeed_one rfl (gather_fits _ 2 10) s
  | gather3 => exact resultsFit_succeed_one rfl (gather_fits _ 3 16) s
  | enc2 | dec2 => exact ⟨and_not_allOnes _, and_not_allOnes _, BitVec.zero_and, BitVec.zero_and⟩
  | enc3 => exact resultsFit_succeed_one rfl (interleave_fits (k := 30) ([s.opa, s.opb, s.opc].map BitVec.toNat) rfl) s
  | enc4 => exact resultsFit_succeed_one rfl (and_not_allOnes _) s
  | dec3 => exact ⟨gather_fits _ 2 10, gather_fits _ 2 10, gather_fits _ 2 10, BitVec.zero_and⟩
  | dec4 => exact ⟨gather_fits _ 3 16, gather_fits _ 3 16, gather_fits _ 3 16, gather_fits _ 3 16⟩

end Sys2Proof.Machine
end

section
/-! SUPPORT. What an access does to the registers by name: which it keeps, and that only an accepted write to CMD executes
(10_state.md rule R20, 20_memory.md rules R42 to R46). -/

namespace Sys2Proof.Machine

theorem regAt_eq_some_iff {o : BitVec 7} {r : Reg} : regAt o = some r ↔ o = regOffset r := by
  constructor
  · intro h
    unfold regAt at h
    split at h
    case h_12 => cases h
    all_goals
      rename_i ho
      cases h
      exact BitVec.eq_of_toNat_eq ho
  · rintro rfl
    exact regAt_regOffset r

/-- The two ends of the port are no register. -/
@[simp] theorem State.reg_answer_port (p : Response) (s : State) (rest : List Event) (r : Reg) :
    ({ s with port := rest }.answer p).reg r = s.reg r := by
  cases r <;> rfl

/-- A register that takes all of a write holds it after the write (20_memory.md rule R46). -/
theorem State.reg_store_same {r : Reg} (hr : r ∈ [Reg.opa, Reg.opb, Reg.opc, Reg.opd, Reg.cmd]) (v : Word) (s : State) :
    (s.store r v).reg r = v := by
  simp only [List.mem_cons, List.not_mem_nil, or_false] at hr
  rcases hr with rfl | rfl | rfl | rfl | rfl <;> rfl

/-- A write to a read-only register is no write (20_memory.md rule R45). -/
theorem State.store_readOnly {r : Reg} (hr : r ∈ [Reg.res0, Reg.res1, Reg.res2, Reg.res3, Reg.status]) (v : Word)
    (s : State) : s.store r v = s := by
  simp only [List.mem_cons, List.not_mem_nil, or_false] at hr
  rcases hr with rfl | rfl | rfl | rfl | rfl <;> rfl

theorem State.store_ctrl_ctrlWord (v : Word) (s : State) : (s.store .ctrl v).ctrlWord = v &&& 1#64 := by
  refine BitVec.eq_of_getLsbD_eq fun j hj => ?_
  cases j <;> simp [State.ctrlWord, strictOf, hj]

/-- The end of a command writes the result registers and STATUS, and no other register (60_exceptions.md rule R161). -/
theorem State.complete_reg {r : Reg} (hr : r ∉ [Reg.res0, Reg.res1, Reg.res2, Reg.res3, Reg.status]) (b : Body)
    (s : State) : (s.complete b).reg r = s.reg r := by
  cases r with
  | res0 | res1 | res2 | res3 | status => exact absurd (by decide) hr
  | _ => cases b <;> rfl

/-- An error writes STATUS, and no other register (60_exceptions.md rule R165). -/
theorem State.raiseError_reg {r : Reg} (hr : r ≠ .status) (e : CommandError) (s : State) :
    (s.raiseError e).reg r = s.reg r := by
  cases r with
  | status => exact absurd rfl hr
  | _ => rfl

@[simp] theorem State.complete_done (b : Body) (s : State) : (s.complete b).done = true := by
  cases b <;> rfl

@[simp] theorem State.complete_port (b : Body) (s : State) : (s.complete b).port = s.port := by
  cases b <;> rfl

@[simp] theorem State.complete_strict (b : Body) (s : State) : (s.complete b).strict = s.strict := by
  cases b <;> rfl

@[simp] theorem State.complete_response (b : Body) (s : State) : (s.complete b).response = s.response := by
  cases b <;> rfl

/-- Two states tell the same of the last command: CMD, the fields of STATUS and the results agree. -/
structure SameOutcome (s t : State) : Prop where
  cmd : t.cmd = s.cmd
  done : t.done = s.done
  err : t.err = s.err
  errcode : t.errcode = s.errcode
  res0 : t.res0 = s.res0
  res1 : t.res1 = s.res1
  res2 : t.res2 = s.res2
  res3 : t.res3 = s.res3

theorem SameOutcome.statusWord {s t : State} (h : SameOutcome s t) : t.statusWord = s.statusWord := by
  simp only [State.statusWord, h.done, h.err, h.errcode]

theorem sameOutcome_answer (s : State) (rest : List Event) (p : Response) :
    SameOutcome s ({ s with port := rest }.answer p) := by
  constructor <;> rfl

theorem sameOutcome_store {s t : State} (h : SameOutcome s t) {r : Reg} (hr : r ≠ .cmd) (v : Word) :
    SameOutcome s (t.store r v) := by
  obtain ⟨hcmd, hdone, herr, hcode, h0, h1, h2, h3⟩ := h
  cases r with
  | cmd => exact absurd rfl hr
  | _ => constructor <;> assumption

/-- The access that starts a command: 8 bytes to the offset of CMD in one transfer (10_state.md rule R23). -/
def WritesCmd (a : Access) (w : Word) : Prop :=
  a.bytes = 8 ∧ a.burst = false ∧ a.offset = regOffset .cmd ∧ a.direction = .write w

/-- An access starts a command, or it leaves the outcome of the last one as it was, and every register too unless it
writes an operand register or CTRL. -/
theorem step_access_cases {s : State} {a : Access} {rest : List Event} (hport : s.port = .access a :: rest) :
    (∃ w, WritesCmd a w ∧
      step s = executeCommand w (({ s with port := rest }.answer .normal).store .cmd w)) ∨
    (∃ t, step s = .next t ∧ SameOutcome s t ∧
      (a.offset ∉ [Reg.opa, Reg.opb, Reg.opc, Reg.opd, Reg.ctrl].map regOffset → ∀ r, t.reg r = s.reg r)) := by
  have hstep : step s = performAccess a { s with port := rest } := by simp only [step, hport, performEvent]
  have hsame := sameOutcome_answer s rest
  have hreg := fun p => State.reg_answer_port p s rest
  rw [hstep]
  rcases performAccess_cases a { s with port := rest } with ⟨-, h⟩ | ⟨-, -, h⟩ | ⟨v, hacc, hdir, h⟩
  · exact .inr ⟨_, h, hsame _, fun _ => hreg _⟩
  · exact .inr ⟨_, h, hsame _, fun _ => hreg _⟩
  · rcases writeReg_cases a.offset v ({ s with port := rest }.answer .normal) with ⟨ho, hw⟩ | ⟨r, ho, hr, hw⟩ | ⟨-, hw⟩
    · simp only [accepted, Bool.and_eq_true, beq_iff_eq, Bool.not_eq_true'] at hacc
      obtain ⟨⟨hbytes, -⟩, hburst⟩ := hacc
      exact .inl ⟨v, ⟨hbytes, hburst, regAt_eq_some_iff.mp ho, hdir⟩, h.trans hw⟩
    · refine .inr ⟨_, h.trans hw, sameOutcome_store (hsame _) hr v, fun hoff => ?_⟩
      have hro : r ∈ [Reg.res0, Reg.res1, Reg.res2, Reg.res3, Reg.status] := by
        rw [regAt_eq_some_iff.mp ho] at hoff
        revert hr hoff
        cases r <;> decide
      rw [State.store_readOnly hro]
      exact hreg _
    · exact .inr ⟨_, h.trans hw, hsame _, fun _ => hreg _⟩

/-- A host's write to a register by name (20_memory.md rules R41 and R46). -/
theorem step_writeAccess {s : State} {r : Reg} {v : Word} {rest : List Event}
    (hport : s.port = .access (writeAccess r v) :: rest) :
    step s = writeReg (regOffset r) v ({ s with port := rest }.answer .normal) := by
  simp only [step, hport, performEvent, performAccess, accepted_writeAccess, writeAccess_direction, writeAccess_offset,
    if_true]

theorem step_writeAccess_cmd {s : State} {w : Word} {rest : List Event}
    (hport : s.port = .access (writeAccess .cmd w) :: rest) :
    step s = executeCommand w (({ s with port := rest }.answer .normal).store .cmd w) := by
  rw [step_writeAccess hport, writeReg, regAt_regOffset]

theorem step_writeAccess_store {s : State} {r : Reg} {v : Word} {rest : List Event}
    (hport : s.port = .access (writeAccess r v) :: rest) (hr : r ≠ .cmd) :
    step s = .next (({ s with port := rest }.answer .normal).store r v) := by
  rw [step_writeAccess hport, writeReg, regAt_regOffset]
  cases r with
  | cmd => exact absurd rfl hr
  | _ => rfl

/-- A host's read of a register by name answers its value (20_memory.md rule R41). -/
theorem step_readAccess {s : State} {r : Reg} {rest : List Event} (hport : s.port = .access (readAccess r) :: rest) :
    step s = .next ({ s with port := rest }.answer (.data (s.reg r))) := by
  simp only [step, hport, performEvent, performAccess, accepted_readAccess, readAccess_direction, readAccess_offset,
    if_true, State.readReg, regAt_regOffset]
  cases r <;> rfl

theorem step_reset {s : State} {l : List Access} {rest : List Event} (hport : s.port = .reset l :: rest) :
    step s = .next (resetWith rest) := by
  simp only [step, hport, performEvent]

end Sys2Proof.Machine
end

section
/-! SUPPORT. The invariant of the machine: STATUS agrees with the word in CMD and the result registers (10_state.md rules R22
to R27). An access that starts no command keeps what it speaks of; a command establishes it; so does a reset. -/

namespace Sys2Proof.Machine

theorem statusTellsOfCmd_of_legal {s : State} {i : Instr} (hcmd : s.cmd = encode i)
    (h : (s.err = false ∧ s.errcode = 0#4 ∧ ResultsFit i s) ∨
      (s.err = true ∧ s.errcode = 2#4 ∧ ∃ u : State, OutOfDomain i u)) : StatusTellsOfCmd s := by
  rw [StatusTellsOfCmd, hcmd, decode_encode]
  exact h

theorem statusTellsOfCmd_of_illegal {s : State} (hcmd : ∀ i, s.cmd ≠ encode i)
    (h : s.err = true ∧ s.errcode = 1#4) : StatusTellsOfCmd s := by
  rw [StatusTellsOfCmd]
  cases hd : decode s.cmd with
  | ok i => exact absurd (decode_eq_ok_iff.mp hd) (hcmd i)
  | error e => exact h

/-- After the first command the invariant speaks of STATUS, CMD and the results alone. -/
theorem State.inv_of_done {s : State} (hdone : s.done = true) (hstatus : StatusTellsOfCmd s)
    (hfit : ∃ i, ResultsFit i s) : s.Inv :=
  ⟨fun h => by simp [hdone] at h, fun _ => hstatus, hfit⟩

/-- Executing the word in CMD establishes the invariant; of the state before, only the results matter, which an error
keeps. -/
theorem inv_of_executeCommand {w : Word} {s t : State} (hcmd : s.cmd = w) (hfit : ∃ i, ResultsFit i s)
    (h : executeCommand w s = .next t) : t.Inv := by
  subst hcmd
  rcases executeCommand_outcome s.cmd s with ⟨i, hi, -, hexec⟩ | ⟨i, hi, -, hout, hexec⟩ | ⟨hill, hexec⟩
  · cases hexec.symm.trans h
    have hres := commandResults_fit i s
    exact State.inv_of_done rfl (statusTellsOfCmd_of_legal hi (.inl ⟨rfl, rfl, hres⟩)) ⟨i, hres⟩
  · cases hexec.symm.trans h
    exact State.inv_of_done rfl (statusTellsOfCmd_of_legal hi (.inr ⟨rfl, rfl, s, hout⟩)) hfit
  · cases hexec.symm.trans h
    exact State.inv_of_done rfl (statusTellsOfCmd_of_illegal hill ⟨rfl, rfl⟩) hfit

theorem State.Inv.of_sameOutcome {s t : State} (hs : s.Inv) (h : SameOutcome s t) : t.Inv := by
  obtain ⟨hcmd, hdone, herr, hcode, h0, h1, h2, h3⟩ := h
  simpa only [State.Inv, Untouched, StatusTellsOfCmd, ResultsFit, hcmd, hdone, herr, hcode, h0, h1, h2, h3] using hs

theorem resetWith_inv (rest : List Event) : (resetWith rest).Inv :=
  ⟨fun _ => ⟨rfl, rfl, rfl, rfl, rfl, rfl, rfl⟩, fun h => by simp at h,
    .spread1, ⟨BitVec.zero_and, BitVec.zero_and, BitVec.zero_and, BitVec.zero_and⟩⟩

/-- Settles O43: a step is idle, an access that starts no command, a command, or a reset. -/
theorem stepKeepsInv : Obligations.StepKeepsInv := by
  unfold Obligations.StepKeepsInv
  intro s t hs h
  rcases step_cases s with ⟨-, hidle⟩ | ⟨a, rest, hport, -⟩ | ⟨l, rest, -, hreset⟩
  · cases hidle.symm.trans h
    exact hs
  · rcases step_access_cases hport with ⟨w, -, hexec⟩ | ⟨u, hnext, hsame, -⟩
    · obtain ⟨-, -, hfit⟩ := hs
      refine inv_of_executeCommand ?_ ?_ (hexec.symm.trans h)
      · rfl
      · exact hfit
    · cases hnext.symm.trans h
      exact hs.of_sameOutcome hsame
  · cases hreset.symm.trans h
    exact resetWith_inv rest

end Sys2Proof.Machine
end

section
/-! SUPPORT. STATUS (10_state.md rules R24 to R27 and R29): its layout, and what a command leaves in it. -/

namespace Sys2Proof.Machine

@[simp] theorem State.succeed_statusWord (r : Results) (s : State) : (s.succeed r).statusWord = 0x1#64 := by
  simp [State.statusWord]

@[simp] theorem State.raiseError_illegalCmd_statusWord (s : State) : (s.raiseError .illegalCmd).statusWord = 0x13#64 := by
  simp [State.statusWord, CommandError.code]

@[simp] theorem State.raiseError_domain_statusWord (s : State) : (s.raiseError .domain).statusWord = 0x23#64 := by
  simp [State.statusWord, CommandError.code]

/-- Bit `j` of STATUS: ERRCODE, then two reserved bits, ERR and DONE (10_state.md rule R24). -/
theorem State.getLsbD_statusWord (s : State) (j : Nat) :
    s.statusWord.getLsbD j =
      if j = 0 then s.done else if j = 1 then s.err else if j < 4 then false else s.errcode.getLsbD (j - 4) := by
  simp only [State.statusWord, BitVec.getLsbD_append, BitVec.getLsbD_ofBool, BitVec.getLsbD_zero]
  match j with
  | 0 => simp
  | 1 => simp
  | 2 => simp
  | 3 => simp
  | j + 4 =>
    have hhigh : ¬ j < 4 → s.errcode.getLsbD j = false := fun h => BitVec.getLsbD_of_ge _ _ (by omega)
    by_cases hj : j < 4 <;> simp [hj, hhigh]

/-- Settles O8, by the three ways a command word ends. -/
theorem statusRecordsTheOutcome : Obligations.StatusRecordsTheOutcome := by
  unfold Obligations.StatusRecordsTheOutcome
  intro w s
  rcases executeCommand_outcome w s with ⟨i, rfl, hin, hexec⟩ | ⟨i, rfl, hs, hout, hexec⟩ | ⟨hill, hexec⟩
  · refine ⟨_, hexec, by simp, ?_, ?_, by simp⟩
    · exact iff_of_false (by simp) fun h => h i rfl
    · refine iff_of_false (by simp) ?_
      rintro ⟨j, hj, hs, hout⟩
      obtain rfl := encode_injective hj
      rcases hin with hstrict | hin
      · simp [hs] at hstrict
      · exact hin hout
  · exact ⟨_, hexec, by simp [CommandError.code], iff_of_false (by simp [CommandError.code]) fun h => h i rfl,
      iff_of_true rfl ⟨i, rfl, hs, hout⟩, by simp [CommandError.code]⟩
  · exact ⟨_, hexec, by simp [CommandError.code], iff_of_true rfl hill,
      iff_of_false (by simp [CommandError.code]) fun ⟨j, hj, _⟩ => hill j hj, by simp [CommandError.code]⟩

theorem State.statusWord_layout (s : State) :
    s.statusWord.getLsbD 0 = s.done ∧ s.statusWord.getLsbD 1 = s.err ∧ s.statusWord.extractLsb' 2 2 = 0#2 ∧
    s.statusWord.extractLsb' 4 4 = s.errcode ∧ s.statusWord.extractLsb' 8 56 = 0#56 := by
  refine ⟨s.getLsbD_statusWord 0, s.getLsbD_statusWord 1, ?_, ?_, ?_⟩ <;>
    refine BitVec.eq_of_getLsbD_eq fun j hj => ?_ <;>
    rw [BitVec.getLsbD_extractLsb', decide_eq_true hj, Bool.true_and, State.getLsbD_statusWord, if_neg (by omega),
      if_neg (by omega)]
  · rw [if_pos (by omega), BitVec.getLsbD_zero]
  · rw [if_neg (by omega), Nat.add_sub_cancel_left]
  · rw [if_neg (by omega), BitVec.getLsbD_zero, BitVec.getLsbD_of_ge _ _ (by omega)]

/-- A command leaves DONE set, so STATUS is not zero. -/
theorem State.statusWord_ne_zero_of_done {s : State} (h : s.done = true) : s.statusWord ≠ 0#64 := by
  intro hzero
  have hbit := s.getLsbD_statusWord 0
  simp [hzero, h] at hbit

/-- Settles O9: the layout bit by bit, the values from the three ways a command word ends; an access keeps STATUS or
executes a word, which sets DONE. -/
theorem statusLayoutAndValues : Obligations.StatusLayoutAndValues := by
  unfold Obligations.StatusLayoutAndValues
  refine ⟨State.statusWord_layout, fun w s t h => ?_, fun s t a rest hport h hne => ?_, rfl,
    fun s v rest hport => step_writeAccess_store hport (by decide)⟩
  · rcases executeCommand_outcome w s with ⟨i, -, -, hexec⟩ | ⟨i, hi, hs, hout, hexec⟩ | ⟨hill, hexec⟩
    · cases hexec.symm.trans h
      exact .inl ⟨rfl, State.succeed_statusWord _ _⟩
    · cases hexec.symm.trans h
      exact .inr (.inr ⟨⟨i, hi, hs, hout⟩, rfl, State.raiseError_domain_statusWord s⟩)
    · cases hexec.symm.trans h
      exact .inr (.inl ⟨hill, rfl, State.raiseError_illegalCmd_statusWord s⟩)
  · rcases step_access_cases hport with ⟨w, -, hexec⟩ | ⟨u, hnext, hsame, -⟩
    · rw [h, executeCommand_eq_complete] at hexec
      cases hexec
      exact State.statusWord_ne_zero_of_done (State.complete_done _ _)
    · cases hnext.symm.trans h
      rwa [hsame.statusWord]

/-- Settles O10: every end of a command sets DONE, and an access that starts none keeps it. -/
theorem doneIsClearedByResetOnly : Obligations.DoneIsClearedByResetOnly := by
  unfold Obligations.DoneIsClearedByResetOnly
  have hset : ∀ (w : Word) (s t : State), executeCommand w s = .next t → t.done = true := fun w s t h => by
    rw [executeCommand_eq_complete] at h
    cases h
    exact State.complete_done _ _
  refine ⟨hset, fun s t a rest hport h hdone => ?_, fun s l rest hport => ⟨_, step_reset hport, rfl⟩⟩
  rcases step_access_cases hport with ⟨w, -, hexec⟩ | ⟨u, hnext, hsame, -⟩
  · exact hset w _ t (hexec.symm.trans h)
  · cases hnext.symm.trans h
    rw [hsame.done, hdone]

end Sys2Proof.Machine
end

section
/-! SUPPORT. The frame of a command word (10_state.md rules R21 and R22, 60_exceptions.md rules R161 and R165), by register
and by byte of the window. -/

namespace Sys2Proof.Machine

/-- The slot of a byte of the window starts at the multiple of 8 below it. -/
theorem toNat_slot (o : BitVec 7) : (o &&& 0x78#7).toNat = o.toNat / 8 * 8 := by
  revert o
  decide

/-- A byte of the window is a byte of the register at its slot (20_memory.md rules R43 and R44). -/
theorem State.windowByte_congr {s t : State} {o : BitVec 7}
    (h : ∀ r, o.toNat / 8 * 8 = (regOffset r).toNat → t.reg r = s.reg r) : t.windowByte o = s.windowByte o := by
  unfold State.windowByte State.readReg
  cases hat : regAt (o &&& 0x78#7) with
  | none => rfl
  | some r =>
    have hslot := toNat_slot o
    rw [regAt_eq_some_iff.mp hat] at hslot
    simp only [h r hslot.symm]

/-- The result registers and STATUS have the slots `0x20` to `0x3F` and `0x48` to `0x4F` (20_memory.md rule R41). -/
theorem not_output_of_slot {o : BitVec 7} {r : Reg} (hr : o.toNat / 8 * 8 = (regOffset r).toNat)
    (hres : ¬ (0x20 ≤ o.toNat ∧ o.toNat < 0x40)) (hstatus : ¬ (0x48 ≤ o.toNat ∧ o.toNat < 0x50)) :
    r ∉ [Reg.res0, Reg.res1, Reg.res2, Reg.res3, Reg.status] := by
  intro hmem
  simp only [List.mem_cons, List.not_mem_nil, or_false] at hmem
  rcases hmem with rfl | rfl | rfl | rfl | rfl <;> simp [regOffset] at hr <;> omega

theorem ne_status_of_slot {o : BitVec 7} {r : Reg} (hr : o.toNat / 8 * 8 = (regOffset r).toNat)
    (hstatus : ¬ (0x48 ≤ o.toNat ∧ o.toNat < 0x50)) : r ≠ .status := by
  rintro rfl
  simp [regOffset] at hr
  omega

/-- Settles O12: a command word ends by writing the results and STATUS, or STATUS alone. -/
theorem commandFrame : Obligations.CommandFrame := by
  unfold Obligations.CommandFrame
  intro w s t h
  rw [executeCommand_eq_complete] at h
  cases h
  generalize wordBody w s = b
  have hreg : ∀ r, r ∉ [Reg.res0, Reg.res1, Reg.res2, Reg.res3, Reg.status] → (s.complete b).reg r = s.reg r :=
    fun r hr => State.complete_reg hr b s
  refine ⟨hreg .opa (by decide), hreg .opb (by decide), hreg .opc (by decide), hreg .opd (by decide),
    hreg .cmd (by decide), State.complete_strict b s, State.complete_port b s, State.complete_response b s,
    fun o hres hstatus => State.windowByte_congr fun r hr => hreg r (not_output_of_slot hr hres hstatus),
    fun herr o hstatus => State.windowByte_congr fun r hr => ?_⟩
  cases b with
  | ok res => simp at herr
  | error e => exact State.raiseError_reg (ne_status_of_slot hr hstatus) e s

/-- A command writes zero to the results its rule does not define (10_state.md rule R22, 30_encoding.md rule R62). -/
theorem commandResults_undefined_eq_zero (i : Instr) (s : State) :
    (i ∉ [Instr.enc2, Instr.dec2, Instr.dec3, Instr.dec4] → (commandResults i s).r1 = 0#64) ∧
    (i ∉ [Instr.dec3, Instr.dec4] → (commandResults i s).r2 = 0#64) ∧ (i ≠ .dec4 → (commandResults i s).r3 = 0#64) := by
  cases i with
  | enc2 | dec2 => exact ⟨fun h => absurd (by decide) h, fun _ => rfl, fun _ => rfl⟩
  | dec3 => exact ⟨fun h => absurd (by decide) h, fun h => absurd (by decide) h, fun _ => rfl⟩
  | dec4 => exact ⟨fun h => absurd (by decide) h, fun h => absurd (by decide) h, fun h => absurd rfl h⟩
  | _ => exact ⟨fun _ => rfl, fun _ => rfl, fun _ => rfl⟩

/-- Settles O13: a command writes all four results or none, and a host's write to one stores nothing. -/
theorem resultRegistersHoldTheLastSuccess : Obligations.ResultRegistersHoldTheLastSuccess := by
  unfold Obligations.ResultRegistersHoldTheLastSuccess
  constructor
  · intro i s t h
    by_cases hout : s.strict = true ∧ OutOfDomain i s
    · cases (exec_of_outside hout.1 hout.2).symm.trans h
      exact ⟨fun herr => by simp at herr, fun _ => ⟨rfl, rfl, rfl, rfl⟩⟩
    · rw [not_and_or, Bool.not_eq_true] at hout
      cases (exec_of_inside hout).symm.trans h
      exact ⟨fun _ => commandResults_undefined_eq_zero i s, fun herr => by simp at herr⟩
  · intro s r v rest hr hport
    have hro : r ∈ [Reg.res0, Reg.res1, Reg.res2, Reg.res3, Reg.status] := by
      revert hr
      cases r <;> decide
    have hne : r ≠ .cmd := by
      rintro rfl
      exact absurd hr (by decide)
    rw [step_writeAccess_store hport hne, State.store_readOnly hro]
    rfl

end Sys2Proof.Machine
end

section
/-! SUPPORT. CTRL (10_state.md rules R28 and R29): its one field, and the mode it selects. -/

namespace Sys2Proof.Machine

theorem succeeds_of_inside {i : Instr} {s : State} (h : s.strict = false ∨ ¬ OutOfDomain i s) :
    Succeeds i s (commandResults i s).r0 (commandResults i s).r1 (commandResults i s).r2 (commandResults i s).r3 :=
  ⟨_, exec_of_inside h, rfl, State.succeed_statusWord _ _⟩

theorem raisesDomain_of_outside {i : Instr} {s : State} (hs : s.strict = true) (h : OutOfDomain i s) :
    RaisesDomain i s :=
  ⟨_, exec_of_outside hs h, rfl, State.raiseError_domain_statusWord s⟩

theorem State.getLsbD_ctrlWord_of_pos (s : State) {j : Nat} (hj : 1 ≤ j) : s.ctrlWord.getLsbD j = false := by
  rw [State.ctrlWord, BitVec.getLsbD_setWidth, BitVec.getLsbD_of_ge _ _ hj, Bool.and_false]

/-- Settles O31: a command reads the bits of its domain only, and what it checks in strict mode are the others. -/
theorem ctrlSelectsMaskingOrStrictMode : Obligations.CtrlSelectsMaskingOrStrictMode := by
  unfold Obligations.CtrlSelectsMaskingOrStrictMode
  refine ⟨by decide, fun s => ?_, fun s v rest hport => step_writeAccess_store hport (by decide), fun i s hs => ?_,
    fun i s hs => ⟨fun h => ?_, fun h => ?_⟩⟩
  · rw [State.ctrlWord]
    cases s.strict <;> rfl
  · have hmasked := succeeds_of_inside (i := i) (s := s.maskedBy (domainMask i)) (.inl hs)
    rw [commandResults_maskedBy] at hmasked
    exact ⟨_, _, _, _, succeeds_of_inside (.inl hs), hmasked⟩
  · exact raisesDomain_of_outside hs ((outOfDomain_iff_outside_mask i s).mpr h)
  · refine ⟨_, _, _, _, succeeds_of_inside (.inr fun hout => ?_)⟩
    obtain ⟨r, hr, hne⟩ := (outOfDomain_iff_outside_mask i s).mp hout
    exact hne (h r hr)

/-- A word with a reserved bit set is the word of no command (30_encoding.md rule R66). -/
theorem ne_encode_of_rsvd {w : Word} (h : w.extractLsb' 8 56 ≠ 0#56) (i : Instr) : w ≠ encode i := by
  rintro rfl
  apply h
  cases i <;> rfl

/-- Settles O33, clause by clause: the fields of STATUS and CTRL, the store to CTRL, and the illegal word. -/
theorem reservedBitsReadZeroOrAreIllegal : Obligations.ReservedBitsReadZeroOrAreIllegal := by
  unfold Obligations.ReservedBitsReadZeroOrAreIllegal
  refine ⟨fun s j hj => ?_, fun s j => s.getLsbD_ctrlWord_of_pos, fun s u t v v' rest hv ht hu => ?_,
    fun s w rest hport hw => ?_⟩
  · rw [State.getLsbD_statusWord, if_neg (by omega), if_neg (by omega)]
    split
    · rfl
    · exact BitVec.getLsbD_of_ge _ _ (by omega)
  · rw [step_writeAccess_store rfl (by decide)] at ht hu
    cases ht
    cases hu
    simp only [State.store, strictOf, hv]
  · rw [step_writeAccess_cmd hport]
    rcases executeCommand_outcome w (({ s with port := rest }.answer .normal).store .cmd w) with
      ⟨i, hi, -⟩ | ⟨i, hi, -⟩ | ⟨-, hexec⟩
    · exact absurd hi (ne_encode_of_rsvd hw i)
    · exact absurd hi (ne_encode_of_rsvd hw i)
    · exact ⟨_, hexec, rfl, State.raiseError_illegalCmd_statusWord _⟩

end Sys2Proof.Machine
end

section
/-! SUPPORT. What a host reads back, and that the core does nothing by itself (10_state.md rules R20 and R23, 20_memory.md
rule R50). -/

namespace Sys2Proof.Machine

/-- What a register holds after a write to it, by its kind (20_memory.md rule R46). -/
theorem step_writeAccess_reg {s : State} {r : Reg} {v : Word} {rest : List Event}
    (hport : s.port = .access (writeAccess r v) :: rest) :
    ∃ t : State, step s = .next t ∧ t.port = rest ∧
      (r ∈ [Reg.opa, Reg.opb, Reg.opc, Reg.opd, Reg.cmd] → t.reg r = v) ∧
      (r = .ctrl → t.reg r = v &&& 1#64) ∧
      (r ∈ [Reg.res0, Reg.res1, Reg.res2, Reg.res3, Reg.status] → t.reg r = s.reg r) := by
  by_cases hr : r = .cmd
  · subst hr
    refine ⟨_, (step_writeAccess_cmd hport).trans (executeCommand_eq_complete _ _), State.complete_port _ _,
      fun hmem => ?_, fun h => (by cases h), fun h => absurd h (by decide)⟩
    rw [State.complete_reg (by decide), State.reg_store_same hmem]
  · refine ⟨_, step_writeAccess_store hport hr, ?_, fun hmem => State.reg_store_same hmem _ _, ?_, fun hmem => ?_⟩
    · obtain ⟨-, -, -, -, -, -, -, hstored, -⟩ := State.store_frame r v ({ s with port := rest }.answer .normal)
      exact hstored
    · rintro rfl
      exact State.store_ctrl_ctrlWord _ _
    · rw [State.store_readOnly hmem, State.reg_answer_port]

/-- Settles O32: the write leaves the register so, and the read answers what the register holds. -/
theorem writeThenRead : Obligations.WriteThenRead := by
  unfold Obligations.WriteThenRead
  intro s r v rest hport
  obtain ⟨t, hwrite, htport, hfull, hctrl, hro⟩ := step_writeAccess_reg hport
  have hrun : core.run 2 s = .next ({ t with port := rest }.answer (.data (t.reg r))) := by
    rw [core_run_of_step _ _ _ hwrite, core_run_of_step _ _ _ (step_readAccess htport), core_run_zero]
  exact ⟨_, t.reg r, hrun, rfl, rfl, hfull, hctrl, hro⟩

/-- Settles O34: an access that is no write to CMD keeps the outcome of the last command. -/
theorem onlyCommandWritesExecute : Obligations.OnlyCommandWritesExecute := by
  unfold Obligations.OnlyCommandWritesExecute
  intro s t a rest hport h hcmd
  rcases step_access_cases hport with ⟨w, ⟨hbytes, hburst, hoff, hdir⟩, -⟩ | ⟨u, hnext, hsame, hreg⟩
  · exact absurd ⟨hbytes, hburst, hoff, w, hdir⟩ hcmd
  · cases hnext.symm.trans h
    exact ⟨hsame.cmd, hsame.statusWord, hsame.res0, hsame.res1, hsame.res2, hsame.res3, hreg⟩

/-- Settles O38: the idle branch of a step. -/
theorem nothingHappensWithoutTheHost : Obligations.NothingHappensWithoutTheHost := by
  unfold Obligations.NothingHappensWithoutTheHost
  intro s hport
  rw [step, hport]

end Sys2Proof.Machine
end

section
/-! SUPPORT. Accesses by offset (20_memory.md rules R41 to R46): which the core accepts, what one does at a register's
offset, and that a reserved offset reads zero and takes no write. -/

namespace Sys2Proof.Machine

theorem accepted_iff (a : Access) :
    accepted a = true ↔ a.bytes = 8 ∧ a.offset.toNat % 8 = 0 ∧ a.burst = false := by
  simp [accepted, and_assoc]

theorem accepted_of_aligned {o : BitVec 7} (ho : o.toNat % 8 = 0) (d : Direction) : accepted ⟨o, 8, false, d⟩ = true :=
  (accepted_iff _).mpr ⟨rfl, ho, rfl⟩

theorem step_access {s : State} {a : Access} {rest : List Event} (hport : s.port = .access a :: rest) :
    step s = performAccess a { s with port := rest } := by
  simp only [step, hport, performEvent]

/-- What a register reads as does not depend on what is still to come at the port. -/
@[simp] theorem State.readReg_port (s : State) (p : List Event) (o : BitVec 7) :
    ({ s with port := p } : State).readReg o = s.readReg o :=
  rfl

theorem State.readReg_of_regAt {o : BitVec 7} {r : Reg} (h : regAt o = some r) (s : State) : s.readReg o = s.reg r := by
  rw [State.readReg, h]

theorem State.readReg_of_regAt_none {o : BitVec 7} (h : regAt o = none) (s : State) : s.readReg o = 0#64 := by
  rw [State.readReg, h]

/-- A register write ends, and the response is that of the port (20_memory.md rule R46). -/
theorem writeReg_response (o : BitVec 7) (v : Word) (s : State) :
    ∃ t, writeReg o v s = .next t ∧ t.response = s.response := by
  rcases writeReg_cases o v s with ⟨-, h⟩ | ⟨r, -, -, h⟩ | ⟨-, h⟩
  · exact ⟨_, h.trans (executeCommand_eq_complete _ _), State.complete_response _ _⟩
  · obtain ⟨-, -, -, -, -, -, -, -, hresponse⟩ := State.store_frame r v s
    exact ⟨_, h, hresponse⟩
  · exact ⟨_, h, rfl⟩

/-- Settles O27: a refused access answers a bus error at once, an accepted one reads or writes. -/
theorem refusedAccessesChangeNothing : Obligations.RefusedAccessesChangeNothing := by
  unfold Obligations.RefusedAccessesChangeNothing
  refine ⟨fun s a rest hport hno => ?_, fun s a rest hport hyes => ?_⟩
  · have hrefused : ¬ accepted a = true := (accepted_iff a).not.mpr hno
    rw [step_access hport, performAccess, if_neg hrefused]
    rfl
  · have haccepted : accepted a = true := (accepted_iff a).mpr hyes
    rw [step_access hport]
    rcases performAccess_cases a { s with port := rest } with ⟨hrefused, -⟩ | ⟨-, hdir, h⟩ | ⟨v, -, hdir, h⟩
    · exact absurd haccepted (by simp [hrefused])
    · exact ⟨_, h, .inl ⟨hdir, _, rfl⟩⟩
    · obtain ⟨t, ht, hresponse⟩ := writeReg_response a.offset v ({ s with port := rest }.answer .normal)
      exact ⟨t, h.trans ht, .inr ⟨⟨v, hdir⟩, hresponse⟩⟩

/-- A read of an aligned offset, named or reserved. -/
theorem step_read {s : State} {o : BitVec 7} {rest : List Event}
    (hport : s.port = .access ⟨o, 8, false, .read⟩ :: rest) (ho : o.toNat % 8 = 0) :
    step s = .next ({ s with port := rest }.answer (.data (s.readReg o))) := by
  rw [step_access hport, performAccess, if_pos (accepted_of_aligned ho _)]
  simp only [State.readReg_port]

theorem step_write {s : State} {o : BitVec 7} {v : Word} {rest : List Event}
    (hport : s.port = .access ⟨o, 8, false, .write v⟩ :: rest) (ho : o.toNat % 8 = 0) :
    step s = writeReg o v ({ s with port := rest }.answer .normal) := by
  rw [step_access hport, performAccess, if_pos (accepted_of_aligned ho _)]

/-- The reserved offsets of 20_memory.md rule R44. -/
def reservedOffsets : List (BitVec 7) := [0x58#7, 0x60#7, 0x68#7, 0x70#7, 0x78#7]

theorem mem_reservedOffsets_iff (o : BitVec 7) : o ∈ reservedOffsets ↔ o.toNat % 8 = 0 ∧ regAt o = none := by
  revert o
  decide

theorem step_write_reserved {s : State} {o : BitVec 7} {v : Word} {rest : List Event} (ho : o ∈ reservedOffsets)
    (hport : s.port = .access ⟨o, 8, false, .write v⟩ :: rest) :
    step s = .next ({ s with port := rest }.answer .normal) := by
  obtain ⟨haligned, hnone⟩ := (mem_reservedOffsets_iff o).mp ho
  rw [step_write hport haligned, writeReg, hnone]

theorem step_read_reserved {s : State} {o : BitVec 7} {rest : List Event} (ho : o ∈ reservedOffsets)
    (hport : s.port = .access ⟨o, 8, false, .read⟩ :: rest) :
    step s = .next ({ s with port := rest }.answer (.data 0#64)) := by
  obtain ⟨haligned, hnone⟩ := (mem_reservedOffsets_iff o).mp ho
  rw [step_read hport haligned, State.readReg_of_regAt_none hnone]

/-- Settles O28: no register has a reserved offset. -/
theorem reservedOffsetsReadZero : Obligations.ReservedOffsetsReadZero := by
  unfold Obligations.ReservedOffsetsReadZero
  exact fun s o v rest ho => ⟨step_read_reserved ho, step_write_reserved ho⟩

/-- Settles O29: the offsets are those of the read-only registers, which store nothing. -/
theorem readOnlyRegistersIgnoreWrites : Obligations.ReadOnlyRegistersIgnoreWrites := by
  unfold Obligations.ReadOnlyRegistersIgnoreWrites
  intro s o v rest ho hport
  have hmem : o ∈ [Reg.res0, Reg.res1, Reg.res2, Reg.res3, Reg.status].map regOffset := ho
  obtain ⟨r, hr, rfl⟩ := List.mem_map.mp hmem
  have hne : r ≠ .cmd := by
    rintro rfl
    exact absurd hr (by decide)
  rw [step_writeAccess_store hport hne, State.store_readOnly hr]
  rfl

end Sys2Proof.Machine
end

section
/-! SUPPORT. The register map and the effect of each access (20_memory.md rules R41 and R46), and that a command executed
again right away does the same again: it writes none of the registers it reads. -/

namespace Sys2Proof.Machine

/-- No command reads a register that a command writes (30_encoding.md rule R62). -/
theorem not_output_of_mem_operandRegs {i : Instr} {r : Reg} (h : r ∈ operandRegs i) :
    r ∉ [Reg.res0, Reg.res1, Reg.res2, Reg.res3, Reg.status] := by
  have hsub : operandRegs i ⊆ [Reg.opa, Reg.opb, Reg.opc, Reg.opd] := by
    cases i <;> decide
  have hoperand := hsub h
  revert hoperand
  cases r <;> decide

theorem wordBody_complete (w : Word) (b : Body) (s : State) : wordBody w (s.complete b) = wordBody w s :=
  wordBody_congr (State.complete_strict b s) fun _ _ _ hr => State.complete_reg (not_output_of_mem_operandRegs hr) b s

theorem State.complete_complete (b : Body) (s : State) : (s.complete b).complete b = s.complete b := by
  cases b <;> rfl

theorem executeCommand_again {w : Word} {s t : State} (h : executeCommand w s = .next t) :
    executeCommand w t = .next t := by
  rw [executeCommand_eq_complete] at h ⊢
  cases h
  rw [wordBody_complete, State.complete_complete]

/-- The register map (20_memory.md rule R41): what a read of each offset answers. -/
def registerMap (s : State) : List (BitVec 7 × Word) :=
  allRegs.map (fun r => (regOffset r, s.reg r)) ++ reservedOffsets.map (fun o => (o, 0#64))

theorem step_read_registerMap {s : State} {o : BitVec 7} {v : Word} {rest : List Event} (hmap : (o, v) ∈ registerMap s)
    (hport : s.port = .access ⟨o, 8, false, .read⟩ :: rest) :
    step s = .next ({ s with port := rest }.answer (.data v)) := by
  rcases List.mem_append.mp hmap with h | h
  · obtain ⟨r, -, heq⟩ := List.mem_map.mp h
    cases heq
    exact step_readAccess hport
  · obtain ⟨o', ho, heq⟩ := List.mem_map.mp h
    cases heq
    exact step_read_reserved ho hport

/-- Settles O30: reads by the register map, writes by the register at the offset, and a second execution. -/
theorem effectsOfAccesses : Obligations.EffectsOfAccesses := by
  unfold Obligations.EffectsOfAccesses
  refine ⟨fun s o v rest last hmap => ?_, fun s o v rest hport => ?_, fun w s t => executeCommand_again⟩
  · exact step_read_registerMap (s := { s with port := _, response := last }) hmap rfl
  · have hstore : ∀ r, r ≠ .cmd → o = regOffset r →
        step s = .next (({ s with port := rest }.answer .normal).store r v) := by
      rintro r hr rfl
      exact step_writeAccess_store hport hr
    refine ⟨hstore .opa (by decide), hstore .opb (by decide), hstore .opc (by decide), hstore .opd (by decide),
      hstore .ctrl (by decide), ?_, fun ho => ?_⟩
    · rintro rfl
      exact step_writeAccess_cmd hport
    · have hsplit : o ∈ [0x20#7, 0x28#7, 0x30#7, 0x38#7, 0x48#7] ++ reservedOffsets := ho
      rcases List.mem_append.mp hsplit with hro | hres
      · exact readOnlyRegistersIgnoreWrites s o v rest hro hport
      · exact step_write_reserved hres hport

end Sys2Proof.Machine
end

section
/-! SUPPORT. The step that executes a command word (20_memory.md rules R46 to R48, 60_exceptions.md rule R161). -/

namespace Sys2Proof.Machine

/-- A word that decodes runs its command (60_exceptions.md rule R161). -/
theorem executeCommand_of_decode_ok {w : Word} {i : Instr} (h : decode w = .ok i) (s : State) :
    executeCommand w s = exec i s := by
  rw [executeCommand, h]

theorem tableWord_toNat (w : Word) : tableWord 64 w.toNat = w := by
  rw [tableWord, Nat.mod_eq_of_lt w.isLt, Word.ofExact, BitVec.ofNat_toNat, BitVec.setWidth_eq]

/-- Settles O5: a write to CMD executes the word, and a word that decodes runs its command. -/
theorem stepRunsTheDecodedCommand : Obligations.StepRunsTheDecodedCommand := by
  unfold Obligations.StepRunsTheDecodedCommand
  refine ⟨fun s w i rest hport hi => ?_, fun s w i hi => ?_⟩
  · rw [step_writeAccess_cmd hport, executeCommand_of_decode_ok hi]
    rfl
  · rw [step_withFetchWord, tableWord_toNat, executeCommand_of_decode_ok hi]
    rfl

end Sys2Proof.Machine
end

section
/-! SUPPORT. The bytes of the window (20_memory.md rule R43): byte `b` of a slot is at the slot's offset plus `b`, and the
registers' slots end at `0x57`. -/

namespace Sys2Proof.Machine

theorem regOffset_aligned (r : Reg) : (regOffset r).toNat % 8 = 0 := by
  cases r <;> rfl

/-- CTRL has the last slot. -/
theorem regOffset_le (r : Reg) : (regOffset r).toNat ≤ 0x50 := by
  cases r <;> decide

theorem toNat_regOffset_add (r : Reg) {b : Nat} (hb : b < 8) :
    (regOffset r + BitVec.ofNat 7 b).toNat = (regOffset r).toNat + b := by
  have hle := regOffset_le r
  rw [BitVec.toNat_add, BitVec.toNat_ofNat]
  omega

theorem slot_regOffset_add (r : Reg) {b : Nat} (hb : b < 8) :
    (regOffset r + BitVec.ofNat 7 b) &&& 0x78#7 = regOffset r := by
  have haligned := regOffset_aligned r
  apply BitVec.eq_of_toNat_eq
  rw [toNat_slot, toNat_regOffset_add r hb]
  omega

/-- Byte `b` of a register's slot is byte `b` of the register. -/
theorem State.windowByte_regOffset_add (s : State) (r : Reg) {b : Nat} (hb : b < 8) :
    s.windowByte (regOffset r + BitVec.ofNat 7 b) = (s.reg r).extractLsb' (8 * b) 8 := by
  have hbyte : ((regOffset r).toNat + b) % 8 = b := by
    have haligned := regOffset_aligned r
    omega
  rw [State.windowByte, slot_regOffset_add r hb, State.readReg_of_regAt (regAt_regOffset r), toNat_regOffset_add r hb,
    hbyte]

/-- No register has a byte past CTRL's slot (20_memory.md rule R44). -/
theorem State.windowByte_reserved (s : State) {o : BitVec 7} (ho : 0x58 ≤ o.toNat) : s.windowByte o = 0#8 := by
  have hnone : regAt (o &&& 0x78#7) = none := by
    rw [Option.eq_none_iff_forall_ne_some]
    intro r hr
    have hle := regOffset_le r
    rw [← regAt_eq_some_iff.mp hr, toNat_slot] at hle
    omega
  rw [State.windowByte, State.readReg_of_regAt_none hnone, BitVec.extractLsb'_zero]

/-- Settles O35: the bytes of the slots, and the whole register on the data of a read or a write. -/
theorem windowIsLittleEndian : Obligations.WindowIsLittleEndian := by
  unfold Obligations.WindowIsLittleEndian
  refine ⟨fun s r b => s.windowByte_regOffset_add r, fun s o => s.windowByte_reserved, fun s r rest hport => ?_,
    fun s r v rest hr hport => ?_⟩
  · exact ⟨_, s.reg r, step_readAccess hport, rfl, fun _ => rfl⟩
  · obtain ⟨t, hstep, -, hfull, -⟩ := step_writeAccess_reg hport
    have hreg : t.reg r = v := hfull hr
    exact ⟨t, hstep, fun j => by rw [hreg], fun b hb => by rw [t.windowByte_regOffset_add r hb, hreg]⟩

end Sys2Proof.Machine
end

section
/-! SUPPORT. The port and the registers (20_memory.md rule R48): what an event does to the registers and what it answers do
not depend on what is still to come, nor on the response to the access before. -/

namespace Sys2Proof.Machine

theorem State.reg_port_response (s : State) (p : List Event) (q : Option Response) (r : Reg) :
    ({ s with port := p, response := q } : State).reg r = s.reg r := by
  cases r <;> rfl

theorem executeCommand_port_response {w : Word} {s t : State} (p : List Event) (q : Option Response)
    (h : executeCommand w s = .next t) :
    executeCommand w { s with port := p, response := q } = .next { t with port := p, response := q } := by
  have hbody : wordBody w { s with port := p, response := q } = wordBody w s :=
    wordBody_congr rfl fun _ _ r _ => s.reg_port_response p q r
  rw [executeCommand_eq_complete] at h ⊢
  cases h
  rw [hbody]
  cases wordBody w s <;> rfl

theorem executeCommand_total (w : Word) (s : State) : ∃ t, executeCommand w s = .next t :=
  ⟨_, executeCommand_eq_complete w s⟩

theorem writeReg_port (o : BitVec 7) (v : Word) (s : State) :
    ∃ t : State, ∀ p, writeReg o v { s with port := p } = .next { t with port := p } := by
  rcases writeReg_cases o v s with ⟨ho, -⟩ | ⟨r, ho, hr, -⟩ | ⟨ho, -⟩
  · obtain ⟨t, ht⟩ := executeCommand_total v (s.store .cmd v)
    refine ⟨{ t with response := s.response }, fun p => ?_⟩
    rw [writeReg, ho]
    exact executeCommand_port_response p s.response ht
  · refine ⟨s.store r v, fun p => ?_⟩
    rw [writeReg, ho]
    cases r with
    | cmd => exact absurd rfl hr
    | _ => rfl
  · refine ⟨s, fun p => ?_⟩
    rw [writeReg, ho]

theorem performAccess_port (a : Access) (s : State) :
    ∃ t : State, ∀ p, performAccess a { s with port := p } = .next { t with port := p } := by
  rcases performAccess_cases a s with ⟨hacc, -⟩ | ⟨hacc, hdir, -⟩ | ⟨v, hacc, hdir, -⟩
  · refine ⟨s.answer .busError, fun p => ?_⟩
    rw [performAccess, hacc]
    rfl
  · refine ⟨s.answer (.data (s.readReg a.offset)), fun p => ?_⟩
    rw [performAccess, hacc, hdir, State.readReg_port]
    rfl
  · obtain ⟨t, ht⟩ := writeReg_port a.offset v (s.answer .normal)
    refine ⟨t, fun p => ?_⟩
    rw [performAccess, hacc, hdir]
    exact ht p

/-- What an event does is one and the same whatever is still to come. -/
theorem performEvent_port (e : Event) (s : State) :
    ∃ t : State, ∀ p, performEvent e { s with port := p } = .next { t with port := p } := by
  cases e with
  | access a => exact performAccess_port a s
  | reset l => exact ⟨State.reset, fun _ => rfl⟩

/-- The events of a list take the core to a state of their own, from which what comes after them goes on. -/
theorem core_run_append (first : List Event) (s : State) :
    ∃ t : State, t.port = [] ∧ ∀ (rest : List Event) (k : Nat),
      core.run (first.length + k) ({ s with port := first ++ rest } : State) = core.run k ({ t with port := rest } : State) := by
  induction first generalizing s with
  | nil => exact ⟨{ s with port := [] }, rfl, fun rest k => by rw [List.length_nil, Nat.zero_add, List.nil_append]⟩
  | cons e first ih =>
    obtain ⟨u, hevent⟩ := performEvent_port e s
    obtain ⟨t, htport, hrun⟩ := ih u
    refine ⟨t, htport, fun rest k => ?_⟩
    have hstep : step { s with port := e :: first ++ rest } = .next { u with port := first ++ rest } :=
      hevent (first ++ rest)
    rw [List.length_cons, Nat.add_right_comm, core_run_of_step _ _ _ hstep, hrun]

/-- Settles O36: by the runs of a list's parts, and for the read after a command by the registers it left. -/
theorem portOrderIsEffectOrder : Obligations.PortOrderIsEffectOrder := by
  unfold Obligations.PortOrderIsEffectOrder
  refine ⟨fun s first then' => ?_, fun s w r rest hport => ?_⟩
  · obtain ⟨t, htport, hrun⟩ := core_run_append first s
    have hend : ({ t with port := [] } : State) = t := by rw [← htport]
    have halone := hrun [] 0
    rw [List.append_nil, hend] at halone
    exact ⟨t, halone, htport, hrun then' 0, hrun then' then'.length⟩
  · obtain ⟨t, hcommand⟩ := executeCommand_total w { s with cmd := w }
    have hwrite := (step_writeAccess_cmd hport).trans
      (executeCommand_port_response (.access (readAccess r) :: rest) (some .normal) hcommand)
    refine ⟨t, { t with port := rest, response := some (.data (t.reg r)) }, hcommand, ?_, rfl⟩
    rw [core_run_of_step _ _ _ hwrite, core_run_of_step _ _ _ (step_readAccess rfl), core_run_zero,
      State.reg_port_response]
    rfl

end Sys2Proof.Machine
end

section
/-! SUPPORT. Several instances on a platform (20_memory.md rules R40 and R53): each steps alone, and aligned windows share
no address. -/

namespace Sys2Proof.Machine

theorem step_total (s : State) : ∃ t, step s = .next t := by
  rcases step_cases s with ⟨-, h⟩ | ⟨a, rest, -, h⟩ | ⟨l, rest, -, h⟩
  · exact ⟨_, h⟩
  · obtain ⟨t, ht⟩ := performAccess_port a s
    exact ⟨_, h.trans (ht rest)⟩
  · exact ⟨_, h⟩

/-- Settles O56: the step of number `k` sets entry `k` of the list. -/
theorem instancesShareNothing : Obligations.InstancesShareNothing := by
  unfold Obligations.InstancesShareNothing
  intro ps k
  cases hk : ps[k]? with
  | none => exact ⟨ps, by rw [stepInstance, hk], rfl, fun j _ => rfl, fun p hp => by cases hp⟩
  | some p =>
    obtain ⟨c, hc⟩ := step_total p.core
    obtain ⟨hlt, -⟩ := List.getElem?_eq_some_iff.mp hk
    refine ⟨ps.set k { p with core := c }, ?_, List.length_set, fun j hj => List.getElem?_set_ne hj.symm, fun q hq => ?_⟩
    · simp only [stepInstance, hk, hc]
    · cases hq
      exact ⟨c, hc, List.getElem?_set_self hlt⟩

/-- An address is in a window at exactly one offset. -/
theorem windowOffset_eq_some_iff {base address : Nat} {o : BitVec 7} :
    windowOffset base address = some o ↔ address = base + o.toNat := by
  have ho := o.isLt
  unfold windowOffset windowSize
  constructor
  · intro h
    split at h
    · cases h
      rw [BitVec.toNat_ofNat]
      omega
    · cases h
  · rintro rfl
    rw [if_pos (by omega), Nat.add_sub_cancel_left, BitVec.ofNat_toNat, BitVec.setWidth_eq]

theorem receive_of_windowOffset {p : Placed} {t : Transaction} {o : BitVec 7} (h : windowOffset p.base t.address = some o) :
    p.receive t =
      { p with core := { p.core with port := p.core.port ++ [.access ⟨o, t.bytes, t.burst, t.direction⟩] } } := by
  rw [Placed.receive, h]

/-- Two aligned windows with an address in common have one base: both are the multiple of 128 below it. -/
theorem base_eq_of_common_address {p q : Placed} {address : Nat} {o o' : BitVec 7} (hp : p.aligned = true)
    (hq : q.aligned = true) (hpo : windowOffset p.base address = some o) (hqo : windowOffset q.base address = some o') :
    p.base = q.base := by
  have hlt := o.isLt
  have hlt' := o'.isLt
  rw [windowOffset_eq_some_iff] at hpo hqo
  simp only [Placed.aligned, windowSize, beq_iff_eq] at hp hq
  omega

/-- Settles O57: an offset in a window is the distance from its base, and aligned windows are disjoint. -/
theorem transactionsReachOneWindow : Obligations.TransactionsReachOneWindow := by
  unfold Obligations.TransactionsReachOneWindow
  refine ⟨fun base o => windowOffset_eq_some_iff.mpr rfl, fun base address o => windowOffset_eq_some_iff.mp,
    fun p q t hp hq hne hin => ?_, fun p a => receive_of_windowOffset (windowOffset_eq_some_iff.mpr rfl),
    Nat.mul_mod_right _ _⟩
  obtain ⟨o, hpo⟩ := Option.ne_none_iff_exists'.mp hin
  cases hqo : windowOffset q.base t.address with
  | none => rw [Placed.receive, hqo]
  | some o' => exact absurd (base_eq_of_common_address hp hq hpo hqo) hne

end Sys2Proof.Machine
end

section
/-! SUPPORT. The twelve command words (30_encoding.md rules R65 to R67): encoding and decoding agree both ways, and every
other word is illegal (rule R66). -/

namespace Sys2Proof.Machine

/-- Settles O3: a word decodes to a command only if it is the command's word. -/
theorem encodeThenDecode : Obligations.EncodeThenDecode := by
  unfold Obligations.EncodeThenDecode
  exact ⟨fun i _ => decode_encode i, fun w i h => (decode_eq_ok_iff.mp h).symm⟩

/-- Settles O2: each value of the table is its command's encoding. -/
theorem commandSelectedByExactWord : Obligations.CommandSelectedByExactWord := by
  unfold Obligations.CommandSelectedByExactWord
  intro w
  and_intros <;> exact decode_eq_ok_iff

/-- Settles O1: the four values are their commands' encodings. -/
theorem tableWordsDecode : Obligations.TableWordsDecode := by
  unfold Obligations.TableWordsDecode
  exact ⟨decode_encode .spread2, decode_encode .gather1, decode_encode .enc4, decode_encode .dec3⟩

theorem mem_allInstrs (i : Instr) : i ∈ allInstrs := by
  cases i <;> decide

theorem ofBits_bits (c : CmdClass) : CmdClass.ofBits c.bits = c := by
  cases c <;> rfl

/-- Any fields, legal or not, are read back from their word (30_encoding.md rule R61). -/
theorem fieldsOf_word (f : CommandFields) : fieldsOf f.word = f := by
  obtain ⟨rsvd, pfx, cls, param⟩ := f
  have hrsvd : (rsvd ++ pfx ++ cls.bits ++ param).extractLsb' 8 56 = rsvd := by
    rw [BitVec.extractLsb'_append_eq_of_le (by decide), BitVec.extractLsb'_append_eq_of_le (by decide),
      BitVec.extractLsb'_append_eq_left]
  have hpfx : (rsvd ++ pfx ++ cls.bits ++ param).extractLsb' 6 2 = pfx := by
    rw [BitVec.extractLsb'_append_eq_of_le (by decide), BitVec.extractLsb'_append_eq_of_le (by decide),
      BitVec.extractLsb'_append_eq_right]
  have hcls : (rsvd ++ pfx ++ cls.bits ++ param).extractLsb' 4 2 = cls.bits := by
    rw [BitVec.extractLsb'_append_eq_of_le (by decide), BitVec.extractLsb'_append_eq_right]
  have hparam : (rsvd ++ pfx ++ cls.bits ++ param).extractLsb' 0 4 = param := BitVec.extractLsb'_append_eq_right
  rw [fieldsOf, CommandFields.word, hrsvd, hpfx, hcls, hparam, ofBits_bits]

theorem encodeFields_wellFormed (i : Instr) : (encodeFields i).wellFormed = true := by
  cases i <;> rfl

/-- A word decodes to a command only if its fields are all legal (30_encoding.md rule R66). -/
theorem wellFormed_of_decode_word {f : CommandFields} {i : Instr} (h : decode f.word = .ok i) :
    f.rsvd = 0#56 ∧ f.pfx = 0#2 ∧ f.paramLegal = true := by
  rw [decode, fieldsOf_word] at h
  have hlegal := encodeFields_wellFormed i
  rw [← eq_encodeFields_of_decodeFields h] at hlegal
  simpa [CommandFields.wellFormed, CommandFields.rsvdLegal, CommandFields.pfxLegal, and_assoc] using hlegal

/-- A word that is no command's raises ILLEGAL_CMD (60_exceptions.md rule R162). -/
theorem executeCommand_of_illegal {w : Word} (h : ∀ i, w ≠ encode i) (s : State) :
    executeCommand w s = .next (s.raiseError .illegalCmd) := by
  rcases executeCommand_cases w s with ⟨i, hi, -⟩ | ⟨e, -, hexec⟩
  · exact absurd (decode_eq_ok_iff.mp hi) (h i)
  · exact hexec

/-- The illegal words are the rest of the 64-bit words beside the twelve. -/
theorem ncard_illegalWords : {w : Word | ∀ i, decode w ≠ .ok i}.ncard = 2 ^ 64 - 12 := by
  have hset : {w : Word | ∀ i, decode w ≠ .ok i} = (↑(allInstrs.map encode).toFinset : Set Word)ᶜ := by
    ext w
    simp [decode_eq_ok_iff, mem_allInstrs, eq_comm (a := w)]
  have htwelve : (allInstrs.map encode).toFinset.card = 12 := by
    decide
  rw [hset, Set.ncard_compl, Set.ncard_coe_finset, htwelve, Nat.card_congr BitVec.equivFin.toEquiv, Nat.card_fin]

/-- Settles O4: by the twelve encodings, the legal fields, and the count of the words left. -/
theorem everyOtherWordIsIllegal : Obligations.EveryOtherWordIsIllegal := by
  unfold Obligations.EveryOtherWordIsIllegal
  refine ⟨fun w hw => executeCommand_of_illegal fun i hi => hw ?_, fun f hf i hi => ?_, fun i hi => ?_,
    ncard_illegalWords⟩
  · have hmem : w ∈ allInstrs.map encode := List.mem_map.mpr ⟨i, mem_allInstrs i, hi.symm⟩
    exact hmem
  · obtain ⟨hrsvd, hpfx, hparam⟩ := wellFormed_of_decode_word hi
    simp [hrsvd, hpfx, hparam] at hf
  · have hzero : decode 0#64 = .error .parameter := rfl
    cases hzero.symm.trans hi

end Sys2Proof.Machine
end

section
/-! SUPPORT. Pseudo-instructions (30_encoding.md rule R70): the operand writes, the command word, and the writes to CTRL. -/

namespace Sys2Proof.Machine

/-- What a write leaves in the registers does not depend on the two ends of the port. -/
theorem State.store_port_response (r : Reg) (v : Word) (s : State) (p : List Event) (q : Option Response) :
    ({ s with port := p, response := q } : State).store r v = { s.store r v with port := p, response := q } := by
  cases r <;> rfl

/-- A run of one step is that step. -/
theorem core_run_one (s : State) : core.run 1 s = step s := by
  obtain ⟨t, ht⟩ := step_total s
  exact (core_run_of_step 0 s t ht).trans ht.symm

/-- The registers after the writes `ws`, in order. -/
def State.storeAll (ws : List (Reg × Word)) (s : State) : State := ws.foldl (fun u p => u.store p.1 p.2) s

/-- The accesses that write `ws`, at the port. -/
def writeEvents (ws : List (Reg × Word)) : List Event := ws.map fun p => .access (writeAccess p.1 p.2)

/-- Writes to registers other than CMD store their values in order, and what comes after them goes on from there. -/
theorem core_run_writeEvents {ws : List (Reg × Word)} (hws : ∀ p ∈ ws, p.1 ≠ .cmd) (s : State) (last : Option Response)
    (rest : List Event) (k : Nat) :
    ∃ last', core.run (ws.length + k) ({ s with port := writeEvents ws ++ rest, response := last } : State) =
      core.run k ({ s.storeAll ws with port := rest, response := last' } : State) := by
  induction ws generalizing s last with
  | nil => exact ⟨last, by rw [List.length_nil, Nat.zero_add]; rfl⟩
  | cons p ws ih =>
    obtain ⟨hp, hws⟩ := List.forall_mem_cons.mp hws
    obtain ⟨last', hrun⟩ := ih hws (s.store p.1 p.2) (some .normal)
    have hstep : step { s with port := writeEvents (p :: ws) ++ rest, response := last } =
        .next { s.store p.1 p.2 with port := writeEvents ws ++ rest, response := some .normal } := by
      rw [step_writeAccess_store rfl hp, ← State.store_port_response]
      rfl
    refine ⟨last', ?_⟩
    rw [List.length_cons, Nat.add_right_comm, core_run_of_step _ _ _ hstep, hrun]
    rfl

/-- A write of a command's word runs the command. -/
theorem step_writeAccess_encode (i : Instr) (s : State) (rest : List Event) (last : Option Response) :
    step { s with port := .access (writeAccess .cmd (encode i)) :: rest, response := last } =
      exec i { s with cmd := encode i, port := rest, response := some .normal } := by
  rw [step_writeAccess_cmd rfl, executeCommand_of_decode_ok (decode_encode i)]
  rfl

theorem ne_cmd_of_mem_operandRegs {i : Instr} {r : Reg} (h : r ∈ operandRegs i) : r ≠ .cmd := by
  rintro rfl
  revert h
  cases i <;> decide

theorem expand_pseudo_eq_some_iff {i : Instr} {args : List Word} {accesses : List Access} :
    (Line.pseudo i args).expand = some accesses ↔
      args.length = (operandRegs i).length ∧
        operandWrites (operandRegs i) args ++ [writeAccess .cmd (encode i)] = accesses := by
  simp [Line.expand]

theorem expand_pseudo_isSome_iff (i : Instr) (args : List Word) :
    (Line.pseudo i args).expand.isSome = true ↔ args.length = (operandRegs i).length := by
  simp [Line.expand]

theorem map_operandWrites (rs : List Reg) (vs : List Word) :
    (operandWrites rs vs).map Event.access = writeEvents (rs.zip vs) := by
  rw [operandWrites, writeEvents, List.zip, List.map_zipWith, List.map_zipWith]

/-- The accesses of a pseudo-instruction, run from any state. -/
theorem core_run_pseudo {i : Instr} {args : List Word} {accesses : List Access} (s : State)
    (h : (Line.pseudo i args).expand = some accesses) :
    core.run accesses.length ({ s with port := accesses.map Event.access } : State) =
      exec i { s.storeAll ((operandRegs i).zip args) with
        cmd := encode i, port := [], response := some .normal } := by
  obtain ⟨-, rfl⟩ := expand_pseudo_eq_some_iff.mp h
  have hne : ∀ p ∈ (operandRegs i).zip args, p.1 ≠ .cmd := fun p hp =>
    ne_cmd_of_mem_operandRegs (List.of_mem_zip hp).1
  obtain ⟨last, hrun⟩ := core_run_writeEvents hne s s.response [.access (writeAccess .cmd (encode i))] 1
  rw [core_run_one, step_writeAccess_encode] at hrun
  rw [← hrun, List.map_append, map_operandWrites, List.length_append]
  simp [operandWrites]

/-- `STRICT ON` and `STRICT OFF` write their value to CTRL. -/
theorem core_run_strict (s : State) (on : Bool) :
    ∃ accesses, (Line.strict on).expand = some accesses ∧
      core.run accesses.length ({ s with port := accesses.map Event.access } : State) =
        .next ({ s with port := [], response := some .normal, strict := on } : State) := by
  have hrun : ∀ v, core.run 1 ({ s with port := [.access (writeAccess .ctrl v)] } : State) =
      .next ({ s with port := [], response := some .normal, strict := strictOf v } : State) := fun v => by
    rw [core_run_one, step_writeAccess_store rfl (by decide)]
    rfl
  cases on with
  | true => exact ⟨_, rfl, hrun 1#64⟩
  | false => exact ⟨_, rfl, hrun 0#64⟩

/-- Settles O58: the operand writes, then the write of the command's word. -/
theorem pseudoInstructionsRunTheirCommand : Obligations.PseudoInstructionsRunTheirCommand := by
  unfold Obligations.PseudoInstructionsRunTheirCommand
  refine ⟨fun i args accesses s => core_run_pseudo s, fun i args => ?_, core_run_strict⟩
  rw [expand_pseudo_isSome_iff]
  cases i <;> rfl

end Sys2Proof.Machine
end

section
/-! SUPPORT. The names of the commands (30_encoding.md rule R69): a name finds its command whatever the case of its letters,
and the line that is CMD and a name is read as the name's command. -/

namespace Sys2Proof.Machine

/-- The text is the mnemonic or the software name of `i`, but for the case of its letters. -/
def Names (name : List Char) (i : Instr) : Prop :=
  name.map Char.toLower = (mnemonic i).toList.map Char.toLower ∨
    name.map Char.toLower = (softwareName i).toList.map Char.toLower

theorem instrNamed_congr {a b : List Char} (h : a.map Char.toLower = b.map Char.toLower) :
    instrNamed a = instrNamed b := by
  simp only [instrNamed, sameName, h]

theorem instrNamed_mnemonic (i : Instr) : instrNamed (mnemonic i).toList = some i := by
  cases i <;> decide

theorem instrNamed_softwareName (i : Instr) : instrNamed (softwareName i).toList = some i := by
  cases i <;> decide

theorem instrNamed_eq_some_iff {name : List Char} {i : Instr} : instrNamed name = some i ↔ Names name i := by
  constructor
  · intro h
    have hfound := List.find?_some h
    simp only [sameName, Bool.or_eq_true, beq_iff_eq] at hfound
    exact hfound.imp Eq.symm Eq.symm
  · rintro (h | h)
    · rw [instrNamed_congr h, instrNamed_mnemonic]
    · rw [instrNamed_congr h, instrNamed_softwareName]

/-- A character that a line's text is cut at (30_encoding.md rule R68). -/
def isSeparator (c : Char) : Bool := isBlank c || c == ';' || c == ','

theorem isSeparator_eq_false_iff {c : Char} :
    isSeparator c = false ↔ isBlank c = false ∧ c ≠ ';' ∧ c ≠ ',' := by
  simp [isSeparator, and_assoc]

/-- A separator is no letter, so it has no case to lose. -/
theorem isSeparator_toLower {c : Char} (h : isSeparator c = true) : isSeparator c.toLower = true := by
  simp only [isSeparator, isBlank, Bool.or_eq_true, beq_iff_eq, or_assoc] at h
  rcases h with rfl | rfl | rfl | rfl <;> rfl

theorem isSeparator_of_mem_names {i : Instr} {c : Char}
    (h : c ∈ (mnemonic i).toList.map Char.toLower ++ (softwareName i).toList.map Char.toLower) : isSeparator c = false := by
  have hall : ((mnemonic i).toList.map Char.toLower ++ (softwareName i).toList.map Char.toLower).all
      (!isSeparator ·) = true := by
    cases i <;> rfl
  simpa using List.all_eq_true.mp hall c h

theorem Names.isSeparator_eq_false {name : List Char} {i : Instr} (h : Names name i) {c : Char} (hc : c ∈ name) :
    isSeparator c = false := by
  have hlower : isSeparator c.toLower = false := by
    have hmem := List.mem_map_of_mem (f := Char.toLower) hc
    exact isSeparator_of_mem_names (List.mem_append.mpr (h.imp (· ▸ hmem) (· ▸ hmem)))
  by_contra hsep
  rw [isSeparator_toLower (by simpa using hsep)] at hlower
  cases hlower

theorem Names.ne_nil {name : List Char} {i : Instr} (h : Names name i) : name ≠ [] := by
  rintro rfl
  rw [← instrNamed_eq_some_iff] at h
  cases h

theorem dropWhile_isBlank_eq_self {cs : List Char} (h : ∀ c ∈ cs.head?, isBlank c = false) :
    cs.dropWhile isBlank = cs := by
  cases cs with
  | nil => rfl
  | cons c cs => simp [h c rfl]

/-- A text that begins and ends with no blank has none to lose. -/
theorem trim_eq_self {cs : List Char} (hfirst : ∀ c ∈ cs.head?, isBlank c = false)
    (hlast : ∀ c ∈ cs.getLast?, isBlank c = false) : trim cs = cs := by
  rw [← List.head?_reverse] at hlast
  rw [trim, dropWhile_isBlank_eq_self hfirst, dropWhile_isBlank_eq_self hlast, List.reverse_reverse]

/-- A text with no `c` in it is one part. -/
theorem splitAtChar_of_not_mem {c : Char} {cs : List Char} (h : c ∉ cs) : splitAtChar c cs = [cs] := by
  induction cs with
  | nil => rfl
  | cons x xs ih =>
    rw [List.mem_cons, not_or] at h
    obtain ⟨hx, hxs⟩ := h
    simp [splitAtChar, ih hxs, Ne.symm hx]

/-- CMD and a text without separators make a line of two words (30_encoding.md rule R69). -/
theorem parseLine_cmd {name : List Char} (hne : name ≠ []) (hname : ∀ c ∈ name, isSeparator c = false) :
    parseLine ("CMD ".toList ++ name) = lineOf ['C', 'M', 'D'] [name] := by
  have hplain : ∀ c ∈ name, isBlank c = false ∧ c ≠ ';' ∧ c ≠ ',' := fun c hc =>
    isSeparator_eq_false_iff.mp (hname c hc)
  have hlast : ∀ c ∈ name.getLast?, isBlank c = false := fun c hc => (hplain c (List.mem_of_getLast? hc)).1
  have hcode : ("CMD ".toList ++ name).takeWhile (· != ';') = "CMD ".toList ++ name := by
    refine List.takeWhile_eq_self_iff.mpr fun c hc => bne_iff_ne.mpr ?_
    rcases List.mem_append.mp hc with hc | hc
    · rintro rfl
      exact absurd hc (by decide)
    · exact (hplain c hc).2.1
  have htrim : trim ("CMD ".toList ++ name) = "CMD ".toList ++ name := by
    refine trim_eq_self (fun c hc => ?_) ?_
    · cases hc
      rfl
    · rwa [List.getLast?_append_of_ne_nil _ hne]
  have hrest : trim name = name := trim_eq_self (fun c hc => (hplain c (List.mem_of_head? hc)).1) hlast
  have hword : ("CMD ".toList ++ name).takeWhile (!isBlank ·) = ['C', 'M', 'D'] := rfl
  have hblank : trim (("CMD ".toList ++ name).dropWhile (!isBlank ·)) = trim name := rfl
  have hsplit : splitAtChar ',' name = [name] := splitAtChar_of_not_mem fun hc => (hplain _ hc).2.2 rfl
  simp only [parseLine, hcode, htrim, hword, hblank, hrest, if_neg hne, hsplit, List.map_cons, List.map_nil]

theorem lineOf_cmd {name : List Char} {i : Instr} (h : instrNamed name = some i) :
    lineOf ['C', 'M', 'D'] [name] = some (.command i) := by
  have hwrite : widthOf ['W', 'R'] ['C', 'M', 'D'] = none := by decide
  have hread : widthOf ['R', 'D'] ['C', 'M', 'D'] = none := by decide
  simp only [lineOf, hwrite, hread, if_true, h]

/-- Settles O59: a name's letters find its command, and no name holds a character that a line is cut at. -/
theorem namesStandForCommands : Obligations.NamesStandForCommands := by
  unfold Obligations.NamesStandForCommands
  intro p hp name
  have hrow : p ∈ allInstrs.map fun i => (i, mnemonic i, softwareName i) := hp
  obtain ⟨i, -, rfl⟩ := List.mem_map.mp hrow
  refine ⟨instrNamed_eq_some_iff, fun h => ?_⟩
  have hnames : Names name i := h
  have hline := lineOf_cmd (instrNamed_eq_some_iff.mpr hnames)
  rw [← parseLine_cmd hnames.ne_nil fun _ => hnames.isSeparator_eq_false] at hline
  exact ⟨.command i, hline, rfl⟩

end Sys2Proof.Machine
end

section
/-! SUPPORT. The result of a spreader as a word (40_swar_spread.md rule R80): where its bits are, and the laws of rule R86
on exact numbers and on words. -/

namespace Sys2Proof.Machine

/-- The word a spreader leaves in RES0 (40_swar_spread.md rule R80). -/
def spreadWord (K W : Nat) (v : Word) : Word := Word.ofExact (spread v.toNat K W)

theorem getLsbD_ofExact (n j : Nat) : (Word.ofExact n).getLsbD j = (decide (j < 64) && n.testBit j) :=
  BitVec.getLsbD_ofNat 64 n j

theorem spread_or (n m K W : Nat) : spread (n ||| m) K W = spread n K W ||| spread m K W := by
  refine Nat.eq_of_testBit_eq fun j => ?_
  simp only [Nat.testBit_or, testBit_spread, Bool.and_or_distrib_left]

theorem spread_and (n m K W : Nat) : spread (n &&& m) K W = spread n K W &&& spread m K W := by
  refine Nat.eq_of_testBit_eq fun j => ?_
  simp only [Nat.testBit_and, testBit_spread]
  ac_rfl

theorem spread_xor (n m K W : Nat) : spread (n ^^^ m) K W = spread n K W ^^^ spread m K W := by
  refine Nat.eq_of_testBit_eq fun j => ?_
  simp only [Nat.testBit_xor, testBit_spread, Bool.and_xor_distrib_left]

theorem spreadWord_or (K W : Nat) (a b : Word) : spreadWord K W (a ||| b) = spreadWord K W a ||| spreadWord K W b := by
  rw [spreadWord, BitVec.toNat_or, spread_or, Word.ofExact, BitVec.ofNat_or, spreadWord, spreadWord]

theorem spreadWord_and (K W : Nat) (a b : Word) : spreadWord K W (a &&& b) = spreadWord K W a &&& spreadWord K W b := by
  rw [spreadWord, BitVec.toNat_and, spread_and, Word.ofExact, BitVec.ofNat_and, spreadWord, spreadWord]

theorem spreadWord_xor (K W : Nat) (a b : Word) : spreadWord K W (a ^^^ b) = spreadWord K W a ^^^ spreadWord K W b := by
  rw [spreadWord, BitVec.toNat_xor, spread_xor, Word.ofExact, BitVec.ofNat_xor, spreadWord, spreadWord]

theorem spread_zero_gap (n W : Nat) : spread n 0 W = n % 2 ^ W := by
  refine Nat.eq_of_testBit_eq fun j => ?_
  simp [testBit_spread, Nat.mod_one]

/-- The top bit decides the order where it differs, whatever the gap between the bits. -/
theorem spread_lt_spread_iff_of_gap (n m K K' W : Nat) :
    spread n K W < spread m K W ↔ spread n K' W < spread m K' W := by
  induction W with
  | zero => exact Iff.rfl
  | succ w ih =>
    have hn := spread_lt n K w
    have hm := spread_lt m K w
    have hn' := spread_lt n K' w
    have hm' := spread_lt m K' w
    simp only [spread_succ]
    cases n.testBit w <;> cases m.testBit w <;> simp only [Bool.toNat_false, Bool.toNat_true] <;> omega

theorem spread_lt_spread_iff (n m K W : Nat) : spread n K W < spread m K W ↔ n % 2 ^ W < m % 2 ^ W := by
  rw [spread_lt_spread_iff_of_gap n m K 0, spread_zero_gap, spread_zero_gap]

theorem popcount_eq_card (v : Word) : popcount v = ((Finset.range 64).filter fun j => v.getLsbD j = true).card := by
  rw [← Nat.count_eq_card_filter_range, popcount, Nat.count]
  simp only [Bool.decide_eq_true]

section Fits

variable {K W : Nat} (hW : W * (K + 1) ≤ 64)
include hW

theorem lane_lt_of_fits {i : Nat} (hi : i < W) : i * (K + 1) < 64 :=
  lt_of_lt_of_le (Nat.mul_lt_mul_of_pos_right hi K.succ_pos) hW

theorem toNat_spreadWord (v : Word) : (spreadWord K W v).toNat = spread v.toNat K W := by
  rw [spreadWord, BitVec.toNat_ofNat,
    Nat.mod_eq_of_lt (lt_of_lt_of_le (spread_lt _ K W) (Nat.pow_le_pow_right (by omega) hW))]

theorem spreadBits_spreadWord (v : Word) : SpreadBits K W v (spreadWord K W v) := by
  refine ⟨fun i hi => ?_, fun j hj => ?_⟩
  · rw [spreadWord, getLsbD_ofExact, testBit_spread_mul, BitVec.testBit_toNat]
    simp [hi, lane_lt_of_fits hW hi]
  · by_contra hbit
    rw [spreadWord, getLsbD_ofExact, Bool.not_eq_false, Bool.and_eq_true] at hbit
    obtain ⟨-, hspread⟩ := hbit
    obtain ⟨i, hi, hji⟩ := (testBit_lane0_iff K W j).mp (testBit_lane0_of_testBit_spread hspread)
    exact hj i hi hji

theorem spreadWord_lt_iff (a b : Word) :
    (spreadWord K W a).toNat < (spreadWord K W b).toNat ↔ a.toNat % 2 ^ W < b.toNat % 2 ^ W := by
  rw [toNat_spreadWord hW, toNat_spreadWord hW, spread_lt_spread_iff]

/-- `i ↦ i*(K+1)` is a bijection from the set bits of the domain to those of the result. -/
theorem popcount_spreadWord (v : Word) : popcount (spreadWord K W v) = popcount (Word.ofExact (v.toNat % 2 ^ W)) := by
  rw [popcount_eq_card, popcount_eq_card]
  refine (Finset.card_nbij (· * (K + 1)) (fun i hi => ?_) (fun i _ k _ hik => ?_) fun j hj => ?_).symm
  · obtain ⟨-, hlt, hv⟩ : i < 64 ∧ i < W ∧ v.toNat.testBit i = true := by
      simpa [getLsbD_ofExact, Nat.testBit_mod_two_pow] using hi
    simpa [spreadWord, getLsbD_ofExact, testBit_spread_mul, hlt, hv] using lane_lt_of_fits hW hlt
  · exact Nat.eq_of_mul_eq_mul_right K.succ_pos hik
  · obtain ⟨hlt, hmod, hdiv, hv⟩ :
        j < 64 ∧ j % (K + 1) = 0 ∧ j / (K + 1) < W ∧ v.toNat.testBit (j / (K + 1)) = true := by
      simpa [spreadWord, getLsbD_ofExact, testBit_spread, and_assoc] using hj
    refine ⟨j / (K + 1), ?_, Nat.div_mul_cancel (Nat.dvd_of_mod_eq_zero hmod)⟩
    simpa [getLsbD_ofExact, Nat.testBit_mod_two_pow, hdiv, hv] using lt_of_le_of_lt (Nat.div_le_self j (K + 1)) hlt

end Fits

end Sys2Proof.Machine
end

section
/-! SUPPORT. The spreader commands (40_swar_spread.md rules R81 to R83 and R86). -/

namespace Sys2Proof.Machine

/-- The three spreaders with their gap K and their width W (40_swar_spread.md rule R80). -/
def spreaders : List (Instr × Nat × Nat) := [(.spread1, 1, 16), (.spread2, 2, 10), (.spread3, 3, 16)]

/-- A spreader's result fits the register, is the spread of OPA, and reads the low W bits of OPA as its domain. -/
theorem spreader_spec {i : Instr} {K W : Nat} (hi : (i, K, W) ∈ spreaders) :
    W * (K + 1) ≤ 64 ∧ (∀ s, commandResults i s = .one (spreadWord K W s.opa)) ∧
    ∀ s, OutOfDomain i s ↔ 2 ^ W ≤ s.opa.toNat := by
  simp only [spreaders, List.mem_cons, Prod.mk.injEq, List.not_mem_nil, or_false] at hi
  obtain ⟨rfl, rfl, rfl⟩ | ⟨rfl, rfl, rfl⟩ | ⟨rfl, rfl, rfl⟩ := hi <;>
    exact ⟨by decide, fun _ => rfl, fun _ => Iff.rfl⟩

section Spreader

variable {i : Instr} {K W : Nat} (hi : (i, K, W) ∈ spreaders)
include hi

theorem succeeds_spreader {s : State} (h : s.strict = false ∨ s.opa.toNat < 2 ^ W) :
    Succeeds i s (spreadWord K W s.opa) 0#64 0#64 0#64 := by
  obtain ⟨-, hres, hdomain⟩ := spreader_spec hi
  rw [← Nat.not_le, ← hdomain] at h
  have hsucc := succeeds_of_inside h
  rwa [hres] at hsucc

theorem exec_spreader {s : State} (hs : s.strict = false) :
    exec i s = .next (s.succeed (.one (spreadWord K W s.opa))) := by
  obtain ⟨-, hres, -⟩ := spreader_spec hi
  rw [exec_of_inside (.inl hs), hres]

/-- With STRICT = 0 or OPA in the domain, a spreader moves the bits of OPA (40_swar_spread.md rule R80). -/
theorem completes_spreadBits {s : State} (h : s.strict = false ∨ s.opa.toNat < 2 ^ W) :
    ∃ r, Succeeds i s r 0#64 0#64 0#64 ∧ SpreadBits K W s.opa r := by
  obtain ⟨hfits, -, -⟩ := spreader_spec hi
  exact ⟨_, succeeds_spreader hi h, spreadBits_spreadWord hfits s.opa⟩

/-- With STRICT = 0, a table of operands and values is a table of commands that complete. -/
theorem succeeds_of_values {values : List (Word × Word)}
    (hvalues : values.map (fun p => spreadWord K W p.1) = values.map Prod.snd) :
    ∀ p ∈ values, ∀ s : State, s.strict = false → s.opa = p.1 → Succeeds i s p.2 0#64 0#64 0#64 := by
  intro p hp s hs ha
  have hsucc := succeeds_spreader hi (.inl hs)
  rwa [ha, List.map_inj_left.mp hvalues p hp] at hsucc

end Spreader

/-- Settles O15: the bits of the result word, the strict check, and the listed values by evaluation. -/
theorem spread1SpreadsSixteenBits : Obligations.Spread1SpreadsSixteenBits := by
  unfold Obligations.Spread1SpreadsSixteenBits
  have hi : (Instr.spread1, 1, 16) ∈ spreaders := by decide
  exact ⟨decode_encode .spread1, fun _ => completes_spreadBits hi,
    fun _ hs h => raisesDomain_of_outside hs h, succeeds_of_values hi (by decide)⟩

/-- Settles O16, as for SPREAD1, with the 10 bits of rule R82. -/
theorem spread2SpreadsTenBits : Obligations.Spread2SpreadsTenBits := by
  unfold Obligations.Spread2SpreadsTenBits
  have hi : (Instr.spread2, 2, 10) ∈ spreaders := by decide
  exact ⟨decode_encode .spread2, fun _ => completes_spreadBits hi,
    fun _ hs h => raisesDomain_of_outside hs h, succeeds_of_values hi (by decide)⟩

/-- Settles O17, as for SPREAD1, with the gap of rule R83. -/
theorem spread3SpreadsSixteenBits : Obligations.Spread3SpreadsSixteenBits := by
  unfold Obligations.Spread3SpreadsSixteenBits
  have hi : (Instr.spread3, 3, 16) ∈ spreaders := by decide
  exact ⟨decode_encode .spread3, fun _ => completes_spreadBits hi,
    fun _ hs h => raisesDomain_of_outside hs h, succeeds_of_values hi (by decide)⟩

/-- Settles O48, one lemma on the result word for each law. -/
theorem spreaderLaws : Obligations.SpreaderLaws := by
  unfold Obligations.SpreaderLaws
  rintro ⟨i, K, W⟩ hp s a b hs
  have hi : (i, K, W) ∈ spreaders := hp
  obtain ⟨hW, -, -⟩ := spreader_spec hi
  have hexec := fun v : Word => exec_spreader (s := { s with opa := v }) hi hs
  exact ⟨_, _, _, _, _, hexec a, hexec b, hexec (a ||| b), hexec (a &&& b), hexec (a ^^^ b),
    spread_and_not_lane0 a.toNat K W, popcount_spreadWord hW a, (spreadWord_or K W a b).symm,
    (spreadWord_and K W a b).symm, (spreadWord_xor K W a b).symm, spreadWord_lt_iff hW a b⟩

end Sys2Proof.Machine
end

section
/-! SUPPORT. The SWAR sequences of the spreaders (40_swar_spread.md rules R84 and R85). Between two passes the bits of the
operand stand in groups of `g`, with a gap of `g*K` zero bits between two groups; a pass halves the groups by moving the
odd ones `g*K` places up. -/

namespace Sys2Proof.Machine

/-- Where bit `i` stands when the bits are in groups of `g` with a gap of `g*K` after each. -/
def groupPos (K g i : Nat) : Nat := i + i / g * (g * K)

/-- The low `W` bits of `n` in groups of `g`: bit `i` at `groupPos K g i`, nothing else set. -/
def spreadGroups (n K g : Nat) : Nat → Nat
  | 0 => 0
  | w + 1 => spreadGroups n K g w + (n.testBit w).toNat * 2 ^ groupPos K g w

theorem groupPos_strictMono (K g : Nat) : StrictMono (groupPos K g) := fun _ _ h =>
  Nat.add_lt_add_of_lt_of_le h (Nat.mul_le_mul_right _ (Nat.div_le_div_right h.le))

theorem spreadGroups_lt (n K g W : Nat) : spreadGroups n K g W < 2 ^ groupPos K g W := by
  induction W with
  | zero => exact Nat.two_pow_pos _
  | succ w ih =>
    have hbit : (n.testBit w).toNat * 2 ^ groupPos K g w ≤ 2 ^ groupPos K g w := by
      cases n.testBit w <;> simp
    calc spreadGroups n K g (w + 1) < 2 ^ groupPos K g w + 2 ^ groupPos K g w := Nat.add_lt_add_of_lt_of_le ih hbit
      _ = 2 ^ (groupPos K g w + 1) := by ring
      _ ≤ 2 ^ groupPos K g (w + 1) := Nat.pow_le_pow_right (by decide) (groupPos_strictMono K g w.lt_succ_self)

theorem testBit_spreadGroups_iff (n K g W j : Nat) :
    (spreadGroups n K g W).testBit j = true ↔ ∃ i, i < W ∧ n.testBit i = true ∧ j = groupPos K g i := by
  induction W with
  | zero => simp [spreadGroups]
  | succ w ih =>
    rw [spreadGroups, testBit_add_bit _ _ _ _ (spreadGroups_lt n K g w), Bool.or_eq_true, ih, Bool.and_eq_true,
      decide_eq_true_iff]
    constructor
    · rintro (⟨i, hi, hn, hj⟩ | ⟨hj, hn⟩)
      · exact ⟨i, by omega, hn, hj⟩
      · exact ⟨w, by omega, hn, hj⟩
    · rintro ⟨i, hi, hn, hj⟩
      rcases Nat.lt_succ_iff_lt_or_eq.mp hi with hlt | rfl
      · exact .inl ⟨i, hlt, hn, hj⟩
      · exact .inr ⟨hj, hn⟩

/-- Groups of one bit are the spread. -/
theorem spreadGroups_one (n K W : Nat) : spreadGroups n K 1 W = spread n K W := by
  induction W with
  | zero => rfl
  | succ w ih =>
    have hpos : groupPos K 1 w = w * (K + 1) := by rw [groupPos, Nat.div_one]; ring
    rw [spreadGroups, spread_succ, ih, hpos]

/-- One group holds all the bits where they stand in the operand. -/
theorem spreadGroups_of_le {n K g W : Nat} (hW : W ≤ g) : spreadGroups n K g W = n % 2 ^ W := by
  have hpos : ∀ i < W, groupPos K g i = i := fun i hi => by
    rw [groupPos, Nat.div_eq_of_lt (by omega), Nat.zero_mul, Nat.add_zero]
  refine Nat.eq_of_testBit_eq fun j => Bool.eq_iff_iff.mpr ?_
  rw [testBit_spreadGroups_iff, Nat.testBit_mod_two_pow, Bool.and_eq_true, decide_eq_true_iff]
  constructor
  · rintro ⟨i, hi, hn, rfl⟩
    rw [hpos i hi]
    exact ⟨hi, hn⟩
  · rintro ⟨hj, hn⟩
    exact ⟨j, hj, hn, (hpos j hj).symm⟩

theorem div_two_mul (i g : Nat) : i / (2 * g) = i / g / 2 := by
  rw [Nat.mul_comm, Nat.div_div_eq_div_mul]

/-- Halving the groups moves the bits of the odd ones `g*K` places up. -/
theorem groupPos_halve (K g i : Nat) : groupPos K g i = groupPos K (2 * g) i + i / g % 2 * (g * K) := by
  have hq := Nat.div_add_mod (i / g) 2
  rw [groupPos, groupPos, div_two_mul, Nat.add_assoc]
  conv_lhs => rw [← hq]
  ring

section Halving

variable {K g : Nat} (hK : 1 ≤ K) (hg : 0 < g)
include hK hg

/-- Two bits stand `g*K` places apart in groups of `2*g` only in the two halves of one group. -/
theorem halves_of_groupPos_double_eq_add {a b : Nat} (h : groupPos K (2 * g) a = groupPos K (2 * g) b + g * K) :
    b / g % 2 = 0 ∧ a / g % 2 = 1 := by
  have hgK : g ≤ g * K := Nat.le_mul_of_pos_right g hK
  have hlt : b < a := (groupPos_strictMono K (2 * g)).lt_iff_lt.mp (by omega)
  simp only [groupPos, div_two_mul, Nat.mul_assoc] at h
  have hsame : a / g / 2 = b / g / 2 := by
    refine (eq_of_le_of_not_lt (Nat.div_le_div_right (Nat.div_le_div_right hlt.le)) fun hgroup => ?_).symm
    have hgap := Nat.mul_le_mul_right (2 * (g * K)) (Nat.succ_le_of_lt hgroup)
    rw [Nat.succ_mul] at hgap
    omega
  have hnext : b / g + 1 ≤ a / g := by
    rw [← Nat.add_div_right b hg]
    rw [hsame] at h
    exact Nat.div_le_div_right (by omega)
  omega

theorem groupPos_double_eq_iff {i k : Nat} : groupPos K (2 * g) k = groupPos K g i ↔ k = i ∧ i / g % 2 = 0 := by
  rw [groupPos_halve K g i]
  rcases Nat.mod_two_eq_zero_or_one (i / g) with heven | hodd
  · simp [heven, (groupPos_strictMono K (2 * g)).injective.eq_iff]
  · rw [hodd, Nat.one_mul]
    exact iff_of_false (fun h => by have := halves_of_groupPos_double_eq_add hK hg h; omega) (by omega)

theorem groupPos_double_add_eq_iff {i k : Nat} :
    groupPos K (2 * g) k + g * K = groupPos K g i ↔ k = i ∧ i / g % 2 = 1 := by
  rw [groupPos_halve K g i]
  rcases Nat.mod_two_eq_zero_or_one (i / g) with heven | hodd
  · rw [heven, Nat.zero_mul, Nat.add_zero]
    exact iff_of_false (fun h => by have := halves_of_groupPos_double_eq_add hK hg h.symm; omega) (by omega)
  · simp [hodd, (groupPos_strictMono K (2 * g)).injective.eq_iff]

/-- At the place of bit `i` in groups of `g`, the groups of `2*g` have a bit only if `i` is in an even group. -/
theorem testBit_spreadGroups_double (n W i : Nat) :
    (spreadGroups n K (2 * g) W).testBit (groupPos K g i) = true ↔ i < W ∧ n.testBit i = true ∧ i / g % 2 = 0 := by
  rw [testBit_spreadGroups_iff]
  constructor
  · rintro ⟨k, hk, hn, hpos⟩
    obtain ⟨rfl, heven⟩ := (groupPos_double_eq_iff hK hg).mp hpos.symm
    exact ⟨hk, hn, heven⟩
  · rintro ⟨hi, hn, heven⟩
    exact ⟨i, hi, hn, ((groupPos_double_eq_iff hK hg).mpr ⟨rfl, heven⟩).symm⟩

/-- There, the same groups moved `g*K` places up have a bit only if `i` is in an odd group. -/
theorem testBit_spreadGroups_double_shift (n W i : Nat) :
    (spreadGroups n K (2 * g) W <<< (g * K)).testBit (groupPos K g i) = true ↔
      i < W ∧ n.testBit i = true ∧ i / g % 2 = 1 := by
  rw [Nat.testBit_shiftLeft, Bool.and_eq_true, decide_eq_true_iff, testBit_spreadGroups_iff]
  constructor
  · rintro ⟨hle, k, hk, hn, hpos⟩
    have hsum : groupPos K (2 * g) k + g * K = groupPos K g i := by omega
    obtain ⟨rfl, hodd⟩ := (groupPos_double_add_eq_iff hK hg).mp hsum
    exact ⟨hk, hn, hodd⟩
  · rintro ⟨hi, hn, hodd⟩
    have hpos := (groupPos_double_add_eq_iff hK hg).mpr ⟨rfl, hodd⟩
    exact ⟨by omega, i, hi, hn, by omega⟩

end Halving

theorem Join.apply_and_eq_or_and {a b m : Nat} (h : a &&& b &&& m = 0) (j : Join) :
    j.apply a b &&& m = (a ||| b) &&& m := by
  cases j with
  | or => rfl
  | xor =>
    have hm : (a &&& m) &&& (b &&& m) = 0 := by
      rw [← h]
      ac_rfl
    rw [Join.apply, Nat.and_xor_distrib_right, xor_eq_or_of_and_eq_zero hm, ← Nat.and_or_distrib_right]

/-- A pass to groups of `g`, which keeps the low `W` bits of the operand (40_swar_spread.md rule R84). -/
def spreadPass (K g W : Nat) : Pass := ⟨g * K, spreadGroups (2 ^ W - 1) K g W⟩

theorem testBit_spreadPass_mask_iff (K g W j : Nat) :
    (spreadPass K g W).mask.testBit j = true ↔ ∃ i, i < W ∧ j = groupPos K g i := by
  rw [spreadPass, testBit_spreadGroups_iff]
  simp +contextual [Nat.testBit_two_pow_sub_one]

section Pass

variable {K g : Nat} (hK : 1 ≤ K) (hg : 0 < g)
include hK hg

/-- A place that the mask keeps is of an even group or of an odd one (40_swar_spread.md rule R85). -/
theorem spreadPass_disjoint (n W V : Nat) :
    spreadGroups n K (2 * g) W &&& (spreadGroups n K (2 * g) W <<< (spreadPass K g V).shift) &&& (spreadPass K g V).mask =
      0 := by
  refine Nat.eq_of_testBit_eq fun j => ?_
  rw [Nat.zero_testBit, ← Bool.not_eq_true, Nat.testBit_and, Nat.testBit_and, Bool.and_eq_true, Bool.and_eq_true,
    testBit_spreadPass_mask_iff]
  rintro ⟨⟨hbit, hshifted⟩, i, -, rfl⟩
  obtain ⟨-, -, heven⟩ := (testBit_spreadGroups_double hK hg n W i).mp hbit
  obtain ⟨-, -, hodd⟩ := (testBit_spreadGroups_double_shift hK hg n W i).mp hshifted
  omega

/-- A pass halves the groups, and drops the bits that its mask does not keep. -/
theorem spreadPass_left {W V : Nat} (hVW : V ≤ W) (j : Join) (n : Nat) :
    (spreadPass K g V).left j (spreadGroups n K (2 * g) W) = spreadGroups n K g V := by
  rw [Pass.left, Join.apply_and_eq_or_and (spreadPass_disjoint hK hg n W V)]
  refine Nat.eq_of_testBit_eq fun l => Bool.eq_iff_iff.mpr ?_
  rw [Nat.testBit_and, Nat.testBit_or, Bool.and_eq_true, Bool.or_eq_true, testBit_spreadPass_mask_iff,
    testBit_spreadGroups_iff n K g V]
  constructor
  · rintro ⟨hbit, i, hi, rfl⟩
    refine ⟨i, hi, ?_, rfl⟩
    rcases hbit with heven | hodd
    · exact ((testBit_spreadGroups_double hK hg n W i).mp heven).2.1
    · exact ((testBit_spreadGroups_double_shift hK hg n W i).mp hodd).2.1
  · rintro ⟨i, hi, hn, rfl⟩
    refine ⟨?_, i, hi, rfl⟩
    rcases Nat.mod_two_eq_zero_or_one (i / g) with heven | hodd
    · exact .inl ((testBit_spreadGroups_double hK hg n W i).mpr ⟨by omega, hn, heven⟩)
    · exact .inr ((testBit_spreadGroups_double_shift hK hg n W i).mpr ⟨by omega, hn, hodd⟩)

end Pass

/-- A spreader's sequence: a first mask, and passes to groups of 8, 4, 2 and 1, of which `width k` bits of the operand are
left after `k` passes. -/
def spreadSequence (K : Nat) (width : Nat → Nat) : Sequence :=
  ⟨2 ^ width 0 - 1, (List.range 4).map fun k => spreadPass K (2 ^ (3 - k)) (width (k + 1))⟩

theorem spreadSequence_pass {K : Nat} {width : Nat → Nat} {k : Nat} (hk : k < 4) :
    (spreadSequence K width).passes[k]? = some (spreadPass K (2 ^ (3 - k)) (width (k + 1))) := by
  rw [spreadSequence, List.getElem?_map, List.getElem?_range hk, Option.map_some]

/-- The groups before pass `k` are twice those after it. -/
theorem two_pow_four_sub {k : Nat} (hk : k < 4) : 2 ^ (4 - k) = 2 * 2 ^ (3 - k) := by
  rw [← pow_succ']
  congr 1
  omega

theorem Sequence.leftAfter_succ {q : Sequence} {k : Nat} {p : Pass} (h : q.passes[k]? = some p) (j : Join) (n : Nat) :
    q.leftAfter j n (k + 1) = p.left j (q.leftAfter j n k) := by
  rw [Sequence.leftAfter, List.take_add_one, h, List.foldl_append]
  rfl

section Run

variable {K : Nat} {width : Nat → Nat} (hK : 1 ≤ K) (hwidth : Antitone width) (hfirst : width 0 ≤ 16)
include hK hwidth hfirst

theorem leftAfter_spreadSequence (j : Join) (n : Nat) {k : Nat} (hk : k ≤ 4) :
    (spreadSequence K width).leftAfter j n k = spreadGroups n K (2 ^ (4 - k)) (width k) := by
  induction k with
  | zero =>
    have hgroup : spreadGroups n K (2 ^ 4) (width 0) = n % 2 ^ width 0 := spreadGroups_of_le hfirst
    exact (Nat.and_two_pow_sub_one_eq_mod n (width 0)).trans hgroup.symm
  | succ k ih =>
    rw [Sequence.leftAfter_succ (spreadSequence_pass hk), ih (by omega), two_pow_four_sub hk,
      spreadPass_left hK (Nat.two_pow_pos _) (hwidth k.le_succ), Nat.add_sub_add_right 3 1 k]

theorem runLeft_spreadSequence (j : Join) (n : Nat) :
    (spreadSequence K width).runLeft j n = spread n K (width 4) := by
  rw [← spreadGroups_one]
  exact leftAfter_spreadSequence hK hwidth hfirst j n (le_refl 4)

theorem spreadSequence_disjoint (j : Join) (n : Nat) {k : Nat} {p : Pass}
    (hp : (spreadSequence K width).passes[k]? = some p) :
    (spreadSequence K width).leftAfter j n k &&& ((spreadSequence K width).leftAfter j n k <<< p.shift) &&& p.mask =
      0 := by
  have hk : k < 4 := by
    simpa [spreadSequence] using (List.getElem?_eq_some_iff.mp hp).1
  rw [spreadSequence_pass hk] at hp
  cases hp
  rw [leftAfter_spreadSequence hK hwidth hfirst j n hk.le, two_pow_four_sub hk,
    spreadPass_disjoint hK (Nat.two_pow_pos _)]

end Run

/-- The bits that SPREAD2's sequence has left: its second pass drops bits 10 to 15 (40_swar_spread.md rule R84). -/
def swarSpread2Width (k : Nat) : Nat := if k ≤ 1 then 16 else 10

theorem swarSpread2Width_antitone : Antitone swarSpread2Width := by
  intro k l hkl
  unfold swarSpread2Width
  split_ifs <;> omega

theorem swarSpread1_eq : swarSpread1 = spreadSequence 1 fun _ => 16 := by decide

theorem swarSpread2_eq : swarSpread2 = spreadSequence 2 swarSpread2Width := by decide

theorem swarSpread3_eq : swarSpread3 = spreadSequence 3 fun _ => 16 := by decide

theorem runLeft_swarSpread1 (j : Join) (n : Nat) : swarSpread1.runLeft j n = spread n 1 16 := by
  rw [swarSpread1_eq, runLeft_spreadSequence (by decide) antitone_const (by decide)]

theorem runLeft_swarSpread2 (j : Join) (n : Nat) : swarSpread2.runLeft j n = spread n 2 10 := by
  rw [swarSpread2_eq]
  exact runLeft_spreadSequence (by decide) swarSpread2Width_antitone (by decide) j n

theorem runLeft_swarSpread3 (j : Join) (n : Nat) : swarSpread3.runLeft j n = spread n 3 16 := by
  rw [swarSpread3_eq, runLeft_spreadSequence (by decide) antitone_const (by decide)]

/-- The three sequences differ in the gap and in how many bits they have left. -/
theorem exists_spreadSequence_of_mem {q : Sequence} (hq : q ∈ [swarSpread1, swarSpread2, swarSpread3]) :
    ∃ K width, q = spreadSequence K width ∧ 1 ≤ K ∧ Antitone width ∧ width 0 ≤ 16 := by
  simp only [List.mem_cons, List.not_mem_nil, or_false] at hq
  obtain rfl | rfl | rfl := hq
  · exact ⟨1, fun _ => 16, swarSpread1_eq, by decide, antitone_const, by decide⟩
  · exact ⟨2, swarSpread2Width, swarSpread2_eq, by decide, swarSpread2Width_antitone, by decide⟩
  · exact ⟨3, fun _ => 16, swarSpread3_eq, by decide, antitone_const, by decide⟩

/-- Settles O52: each pass halves the groups in which the bits stand, from one group of 16 to groups of one bit. -/
theorem swarSpreadersConform : Obligations.SwarSpreadersConform := by
  unfold Obligations.SwarSpreadersConform
  refine ⟨fun j n => ⟨runLeft_swarSpread1 j n.toNat, runLeft_swarSpread2 j n.toNat, runLeft_swarSpread3 j n.toNat⟩,
    fun j s hs => ?_, fun q hq j n k p hp => ?_⟩
  · rw [runLeft_swarSpread1, runLeft_swarSpread2, runLeft_swarSpread3]
    exact ⟨succeeds_spreader (by decide) (.inl hs), succeeds_spreader (by decide) (.inl hs),
      succeeds_spreader (by decide) (.inl hs)⟩
  · obtain ⟨K, width, rfl, hK, hwidth, hfirst⟩ := exists_spreadSequence_of_mem hq
    exact spreadSequence_disjoint hK hwidth hfirst j n.toNat hp

end Sys2Proof.Machine
end

section
/-! SUPPORT. The result of a gatherer as a word (41_swar_gather.md rule R100): where its bits are, and that spreading
and gathering undo each other on words (rule R105). -/

namespace Sys2Proof.Machine

/-- The word a gatherer leaves in RES0 (41_swar_gather.md rule R100). -/
def gatherWord (K W : Nat) (v : Word) : Word := Word.ofExact (gather v.toNat K W)

/-- An operand lies in lane 0 exactly when it has no bit off the multiples of `K + 1` and none past the last lane. -/
theorem and_not_lane0_ne_zero_iff (v : Word) (K W : Nat) :
    v &&& ~~~Word.ofExact (lane0 K W) ≠ 0#64 ↔
      ∃ j, (j % (K + 1) ≠ 0 ∨ W * (K + 1) ≤ j) ∧ v.getLsbD j = true := by
  have hlane : ∀ j, ¬ (lane0 K W).testBit j = true ↔ j % (K + 1) ≠ 0 ∨ W * (K + 1) ≤ j := fun j => by
    rw [testBit_lane0, Bool.and_eq_true, decide_eq_true_iff, decide_eq_true_iff, Nat.div_lt_iff_lt_mul K.succ_pos,
      not_and_or, Nat.not_lt]
  rw [Ne, and_not_ofExact_eq_zero_iff, not_forall]
  refine exists_congr fun j => ?_
  rw [Classical.not_imp, hlane, BitVec.testBit_toNat, and_comm]

section Fits

variable {K W : Nat} (hW : W * (K + 1) ≤ 64)
include hW

theorem toNat_gatherWord (v : Word) : (gatherWord K W v).toNat = gather v.toNat K W := by
  have hle : W ≤ 64 := (Nat.le_mul_of_pos_right W K.succ_pos).trans hW
  rw [gatherWord, BitVec.toNat_ofNat,
    Nat.mod_eq_of_lt (lt_of_lt_of_le (gather_lt _ K W) (Nat.pow_le_pow_right (by decide) hle))]

theorem gatherBits_gatherWord (v : Word) : GatherBits K W v (gatherWord K W v) := by
  have hbit : ∀ i, (gatherWord K W v).getLsbD i = (decide (i < W) && v.getLsbD (i * (K + 1))) := fun i => by
    rw [← BitVec.testBit_toNat, toNat_gatherWord hW, testBit_gather, BitVec.testBit_toNat]
  refine ⟨fun i hi => ?_, fun j hj => ?_⟩
  · rw [hbit, decide_eq_true hi, Bool.true_and]
  · rw [hbit, decide_eq_false (Nat.not_lt.mpr hj), Bool.false_and]

theorem toNat_gatherWord_spreadWord (v : Word) : (gatherWord K W (spreadWord K W v)).toNat = v.toNat % 2 ^ W := by
  rw [toNat_gatherWord hW, toNat_spreadWord hW, gather_spread]

theorem gatherWord_spreadWord_eq_self_iff (v : Word) : gatherWord K W (spreadWord K W v) = v ↔ v.toNat < 2 ^ W := by
  rw [← BitVec.toNat_inj, toNat_gatherWord_spreadWord hW, Nat.mod_eq_iff_lt (Nat.two_pow_pos W).ne']

theorem toNat_spreadWord_gatherWord (v : Word) :
    (spreadWord K W (gatherWord K W v)).toNat = v.toNat &&& lane0 K W := by
  rw [toNat_spreadWord hW, toNat_gatherWord hW, spread_gather]

end Fits

end Sys2Proof.Machine
end

section
/-! SUPPORT. The gatherer commands (41_swar_gather.md rules R101 to R103 and R105). -/

namespace Sys2Proof.Machine

/-- The three gatherers with their gap K and their width W (41_swar_gather.md rule R100). -/
def gatherers : List (Instr × Nat × Nat) := [(.gather1, 1, 16), (.gather2, 2, 10), (.gather3, 3, 16)]

/-- A gatherer's lanes fit the register, it gathers OPA, and its domain is lane 0. -/
theorem gatherer_spec {i : Instr} {K W : Nat} (hi : (i, K, W) ∈ gatherers) :
    W * (K + 1) ≤ 64 ∧ (∀ s, commandResults i s = .one (gatherWord K W s.opa)) ∧
    ∀ s, OutOfDomain i s ↔ s.opa &&& ~~~Word.ofExact (lane0 K W) ≠ 0#64 := by
  simp only [gatherers, List.mem_cons, Prod.mk.injEq, List.not_mem_nil, or_false] at hi
  obtain ⟨rfl, rfl, rfl⟩ | ⟨rfl, rfl, rfl⟩ | ⟨rfl, rfl, rfl⟩ := hi <;>
    exact ⟨by decide, fun _ => rfl, fun s => (operandsOutside_iff _ s).symm.trans bne_iff_ne⟩

/-- A command that answers a function of OPA gives the values that the function has in a table of operands. -/
theorem succeeds_of_table {i : Instr} {f : Word → Word}
    (hsucc : ∀ s : State, s.strict = false → Succeeds i s (f s.opa) 0#64 0#64 0#64) {table : List (Word × Word)}
    (htable : table.map (fun p => f p.1) = table.map Prod.snd) :
    ∀ p ∈ table, ∀ s : State, s.strict = false → s.opa = p.1 → Succeeds i s p.2 0#64 0#64 0#64 := by
  intro p hp s hs ha
  have hs' := hsucc s hs
  rwa [ha, List.map_inj_left.mp htable p hp] at hs'

section Gatherer

variable {i : Instr} {K W : Nat} (hi : (i, K, W) ∈ gatherers)
include hi

theorem succeeds_gatherer {s : State} (h : s.strict = false ∨ ¬ OutOfDomain i s) :
    Succeeds i s (gatherWord K W s.opa) 0#64 0#64 0#64 := by
  obtain ⟨-, hres, -⟩ := gatherer_spec hi
  have hsucc := succeeds_of_inside h
  rwa [hres] at hsucc

theorem exec_gatherer {s : State} (hs : s.strict = false) :
    exec i s = .next (s.succeed (.one (gatherWord K W s.opa))) := by
  obtain ⟨-, hres, -⟩ := gatherer_spec hi
  rw [exec_of_inside (.inl hs), hres]

/-- With STRICT = 0 or OPA in lane 0, a gatherer moves the bits of OPA (41_swar_gather.md rule R100). -/
theorem completes_gatherBits {s : State} (h : s.strict = false ∨ ¬ OutOfDomain i s) :
    ∃ r, Succeeds i s r 0#64 0#64 0#64 ∧ GatherBits K W s.opa r := by
  obtain ⟨hfits, -, -⟩ := gatherer_spec hi
  exact ⟨_, succeeds_gatherer hi h, gatherBits_gatherWord hfits s.opa⟩

/-- In strict mode a bit off the multiples of `K + 1`, or past the last of them, ends a gatherer with DOMAIN. -/
theorem raisesDomain_gatherer_of_bit {s : State} (hs : s.strict = true) {j : Nat}
    (hj : j % (K + 1) ≠ 0 ∨ W * (K + 1) ≤ j) (hbit : s.opa.getLsbD j = true) : RaisesDomain i s := by
  obtain ⟨-, -, hdomain⟩ := gatherer_spec hi
  exact raisesDomain_of_outside hs ((hdomain s).mpr ((and_not_lane0_ne_zero_iff s.opa K W).mpr ⟨j, hj, hbit⟩))

end Gatherer

/-- Settles O18: the bits of the result word, the bits outside lane 0, and the listed values by evaluation. -/
theorem gather1CompactsEvenBits : Obligations.Gather1CompactsEvenBits := by
  unfold Obligations.Gather1CompactsEvenBits
  have hi : (Instr.gather1, 1, 16) ∈ gatherers := by decide
  refine ⟨decode_encode .gather1, fun _ h => completes_gatherBits hi (h.imp_right not_not_intro),
    fun _ hs ⟨j, hj, hbit⟩ => raisesDomain_gatherer_of_bit hi hs ?_ hbit,
    succeeds_of_table (fun _ hs => succeeds_gatherer hi (.inl hs)) (by decide)⟩
  omega

/-- Settles O19, as for GATHER1, with the 10 bits of rule R102. -/
theorem gather2CompactsEveryThirdBit : Obligations.Gather2CompactsEveryThirdBit := by
  unfold Obligations.Gather2CompactsEveryThirdBit
  have hi : (Instr.gather2, 2, 10) ∈ gatherers := by decide
  exact ⟨decode_encode .gather2, fun _ h => completes_gatherBits hi (h.imp_right not_not_intro),
    fun _ hs ⟨_, hj, hbit⟩ => raisesDomain_gatherer_of_bit hi hs hj hbit,
    succeeds_of_table (fun _ hs => succeeds_gatherer hi (.inl hs)) (by decide)⟩

/-- Settles O20, as for GATHER1; the 16 lanes of rule R103 fill the register, so no bit is past the last. -/
theorem gather3CompactsEveryFourthBit : Obligations.Gather3CompactsEveryFourthBit := by
  unfold Obligations.Gather3CompactsEveryFourthBit
  have hi : (Instr.gather3, 3, 16) ∈ gatherers := by decide
  exact ⟨decode_encode .gather3, fun _ h => completes_gatherBits hi (h.imp_right not_not_intro),
    fun _ hs ⟨_, hj, hbit⟩ => raisesDomain_gatherer_of_bit hi hs (.inl hj) hbit,
    succeeds_of_table (fun _ hs => succeeds_gatherer hi (.inl hs)) (by decide)⟩

/-- Each spreader with the gatherer of the same K (41_swar_gather.md rule R100). -/
def inversePairs : List (Instr × Instr × Nat × Nat) :=
  [(.spread1, .gather1, 1, 16), (.spread2, .gather2, 2, 10), (.spread3, .gather3, 3, 16)]

theorem mem_of_mem_inversePairs :
    ∀ p ∈ inversePairs, (p.1, p.2.2) ∈ spreaders ∧ (p.2.1, p.2.2) ∈ gatherers := by
  decide

/-- Settles O49: both commands run on each other's result word, and the words undo each other. -/
theorem spreadGatherRoundTrip : Obligations.SpreadGatherRoundTrip := by
  unfold Obligations.SpreadGatherRoundTrip
  rintro ⟨i, k, K, W⟩ hp s hs
  obtain ⟨hi, hk⟩ := mem_of_mem_inversePairs (i, k, K, W) hp
  obtain ⟨hW, -, -⟩ := spreader_spec hi
  constructor
  · exact ⟨_, _, exec_spreader hi hs, exec_gatherer hk hs, toNat_gatherWord_spreadWord hW s.opa,
      gatherWord_spreadWord_eq_self_iff hW s.opa⟩
  · exact ⟨_, _, exec_gatherer hk hs, exec_spreader hi hs, toNat_spreadWord_gatherWord hW s.opa⟩

end Sys2Proof.Machine
end

section
/-! SUPPORT. The SWAR sequences of the gatherers (41_swar_gather.md rule R104): the spreaders' passes run backwards. The
first mask leaves the gathered bits in groups of one; a pass doubles the groups by moving the odd ones `g*K` places
down. -/

namespace Sys2Proof.Machine

/-- A pass from groups of `g`: it keeps what the spreader's pass to groups of `2*g` keeps of the low `W` bits. -/
def gatherPass (K g W : Nat) : Pass := ⟨g * K, (spreadPass K (2 * g) W).mask⟩

section Doubling

variable {K g : Nat} (hK : 1 ≤ K) (hg : 0 < g)
include hK hg

/-- At the place of bit `i` in groups of `2*g`, the groups of `g` have a bit only if `i` is in an even group. -/
theorem testBit_spreadGroups_at_double (n W i : Nat) :
    (spreadGroups n K g W).testBit (groupPos K (2 * g) i) = true ↔ i < W ∧ n.testBit i = true ∧ i / g % 2 = 0 := by
  rw [testBit_spreadGroups_iff]
  constructor
  · rintro ⟨k, hk, hn, hpos⟩
    obtain ⟨rfl, heven⟩ := (groupPos_double_eq_iff hK hg).mp hpos
    exact ⟨hk, hn, heven⟩
  · rintro ⟨hi, hn, heven⟩
    exact ⟨i, hi, hn, (groupPos_double_eq_iff hK hg).mpr ⟨rfl, heven⟩⟩

/-- There, the same groups moved `g*K` places down have a bit only if `i` is in an odd group. -/
theorem testBit_spreadGroups_shiftRight_at_double (n W i : Nat) :
    (spreadGroups n K g W >>> (g * K)).testBit (groupPos K (2 * g) i) = true ↔
      i < W ∧ n.testBit i = true ∧ i / g % 2 = 1 := by
  rw [Nat.testBit_shiftRight, Nat.add_comm, testBit_spreadGroups_iff]
  constructor
  · rintro ⟨k, hk, hn, hpos⟩
    obtain ⟨rfl, hodd⟩ := (groupPos_double_add_eq_iff hK hg).mp hpos
    exact ⟨hk, hn, hodd⟩
  · rintro ⟨hi, hn, hodd⟩
    exact ⟨i, hi, hn, (groupPos_double_add_eq_iff hK hg).mpr ⟨rfl, hodd⟩⟩

/-- A place that the mask keeps is of an even group or of an odd one (41_swar_gather.md rule R104). -/
theorem gatherPass_disjoint (n W V : Nat) :
    spreadGroups n K g W &&& (spreadGroups n K g W >>> (gatherPass K g V).shift) &&& (gatherPass K g V).mask = 0 := by
  refine Nat.eq_of_testBit_eq fun l => ?_
  rw [Nat.zero_testBit, ← Bool.not_eq_true, Nat.testBit_and, Nat.testBit_and, Bool.and_eq_true, Bool.and_eq_true,
    gatherPass, testBit_spreadPass_mask_iff]
  rintro ⟨⟨hbit, hshifted⟩, i, -, rfl⟩
  obtain ⟨-, -, heven⟩ := (testBit_spreadGroups_at_double hK hg n W i).mp hbit
  obtain ⟨-, -, hodd⟩ := (testBit_spreadGroups_shiftRight_at_double hK hg n W i).mp hshifted
  omega

/-- A pass whose mask keeps all the bits doubles the groups. -/
theorem gatherPass_right {W V : Nat} (hWV : W ≤ V) (j : Join) (n : Nat) :
    (gatherPass K g V).right j (spreadGroups n K g W) = spreadGroups n K (2 * g) W := by
  rw [Pass.right, Join.apply_and_eq_or_and (gatherPass_disjoint hK hg n W V)]
  refine Nat.eq_of_testBit_eq fun l => Bool.eq_iff_iff.mpr ?_
  rw [Nat.testBit_and, Nat.testBit_or, Bool.and_eq_true, Bool.or_eq_true, gatherPass, testBit_spreadPass_mask_iff,
    testBit_spreadGroups_iff n K (2 * g) W]
  constructor
  · rintro ⟨heven | hodd, i, -, rfl⟩
    · obtain ⟨hi, hn, -⟩ := (testBit_spreadGroups_at_double hK hg n W i).mp heven
      exact ⟨i, hi, hn, rfl⟩
    · obtain ⟨hi, hn, -⟩ := (testBit_spreadGroups_shiftRight_at_double hK hg n W i).mp hodd
      exact ⟨i, hi, hn, rfl⟩
  · rintro ⟨i, hi, hn, rfl⟩
    refine ⟨?_, i, hi.trans_le hWV, rfl⟩
    rcases Nat.mod_two_eq_zero_or_one (i / g) with heven | hodd
    · exact .inl ((testBit_spreadGroups_at_double hK hg n W i).mpr ⟨hi, hn, heven⟩)
    · exact .inr ((testBit_spreadGroups_shiftRight_at_double hK hg n W i).mpr ⟨hi, hn, hodd⟩)

end Doubling

/-- A gatherer's sequence: the lane-0 mask, and passes from groups of 1, 2, 4 and 8, of which pass `k` keeps the low
`width k` bits. -/
def gatherSequence (K W : Nat) (width : Nat → Nat) : Sequence :=
  ⟨lane0 K W, (List.range 4).map fun k => gatherPass K (2 ^ k) (width k)⟩

theorem gatherSequence_pass {K W : Nat} {width : Nat → Nat} {k : Nat} (hk : k < 4) :
    (gatherSequence K W width).passes[k]? = some (gatherPass K (2 ^ k) (width k)) := by
  rw [gatherSequence, List.getElem?_map, List.getElem?_range hk, Option.map_some]

theorem Sequence.rightAfter_succ {q : Sequence} {k : Nat} {p : Pass} (h : q.passes[k]? = some p) (j : Join) (n : Nat) :
    q.rightAfter j n (k + 1) = p.right j (q.rightAfter j n k) := by
  rw [Sequence.rightAfter, List.take_add_one, h, List.foldl_append]
  rfl

section Run

variable {K W : Nat} {width : Nat → Nat} (hK : 1 ≤ K) (hwidth : ∀ k, W ≤ width k)
include hK hwidth

/-- The first mask leaves the gathered bits spread, that is in groups of one. -/
theorem rightAfter_gatherSequence (j : Join) (n : Nat) {k : Nat} (hk : k ≤ 4) :
    (gatherSequence K W width).rightAfter j n k = spreadGroups (gather n K W) K (2 ^ k) W := by
  induction k with
  | zero =>
    rw [pow_zero, spreadGroups_one, spread_gather]
    rfl
  | succ k ih =>
    rw [Sequence.rightAfter_succ (gatherSequence_pass hk), ih (by omega),
      gatherPass_right hK (Nat.two_pow_pos k) (hwidth k), ← pow_succ']

theorem runRight_gatherSequence (hW : W ≤ 16) (j : Join) (n : Nat) :
    (gatherSequence K W width).runRight j n = gather n K W := by
  calc (gatherSequence K W width).runRight j n
      = spreadGroups (gather n K W) K (2 ^ 4) W := rightAfter_gatherSequence hK hwidth j n (le_refl 4)
    _ = gather n K W % 2 ^ W := spreadGroups_of_le hW
    _ = gather n K W := Nat.mod_eq_of_lt (gather_lt n K W)

theorem gatherSequence_disjoint (j : Join) (n : Nat) {k : Nat} {p : Pass}
    (hp : (gatherSequence K W width).passes[k]? = some p) :
    (gatherSequence K W width).rightAfter j n k &&& ((gatherSequence K W width).rightAfter j n k >>> p.shift) &&&
      p.mask = 0 := by
  have hk : k < 4 := by
    simpa [gatherSequence] using (List.getElem?_eq_some_iff.mp hp).1
  rw [gatherSequence_pass hk] at hp
  cases hp
  rw [rightAfter_gatherSequence hK hwidth j n hk.le, gatherPass_disjoint hK (Nat.two_pow_pos k)]

end Run

/-- The bits that the masks of GATHER2's passes keep: the third is written for 16 bits (41_swar_gather.md rule R104). -/
def swarGather2Width (k : Nat) : Nat := if k = 2 then 16 else 10

theorem ten_le_swarGather2Width (k : Nat) : 10 ≤ swarGather2Width k := by
  unfold swarGather2Width
  split_ifs <;> decide

theorem swarGather1_eq : swarGather1 = gatherSequence 1 16 fun _ => 16 := by decide

theorem swarGather2_eq : swarGather2 = gatherSequence 2 10 swarGather2Width := by decide

theorem swarGather3_eq : swarGather3 = gatherSequence 3 16 fun _ => 16 := by decide

theorem runRight_swarGather1 (j : Join) (n : Nat) : swarGather1.runRight j n = gather n 1 16 := by
  rw [swarGather1_eq, runRight_gatherSequence (by decide) (fun _ => le_rfl) (by decide)]

theorem runRight_swarGather2 (j : Join) (n : Nat) : swarGather2.runRight j n = gather n 2 10 := by
  rw [swarGather2_eq, runRight_gatherSequence (by decide) ten_le_swarGather2Width (by decide)]

theorem runRight_swarGather3 (j : Join) (n : Nat) : swarGather3.runRight j n = gather n 3 16 := by
  rw [swarGather3_eq, runRight_gatherSequence (by decide) (fun _ => le_rfl) (by decide)]

/-- The three sequences differ in the gap, the width and the bits that their masks keep. -/
theorem exists_gatherSequence_of_mem {q : Sequence} (hq : q ∈ [swarGather1, swarGather2, swarGather3]) :
    ∃ K W width, q = gatherSequence K W width ∧ 1 ≤ K ∧ ∀ k, W ≤ width k := by
  simp only [List.mem_cons, List.not_mem_nil, or_false] at hq
  obtain rfl | rfl | rfl := hq
  · exact ⟨1, 16, fun _ => 16, swarGather1_eq, by decide, fun _ => le_rfl⟩
  · exact ⟨2, 10, swarGather2Width, swarGather2_eq, by decide, ten_le_swarGather2Width⟩
  · exact ⟨3, 16, fun _ => 16, swarGather3_eq, by decide, fun _ => le_rfl⟩

/-- Settles O53: each pass doubles the groups in which the bits stand, from groups of one bit to one group of 16. -/
theorem swarGatherersConform : Obligations.SwarGatherersConform := by
  unfold Obligations.SwarGatherersConform
  refine ⟨fun j n => ⟨runRight_swarGather1 j n.toNat, runRight_swarGather2 j n.toNat, runRight_swarGather3 j n.toNat⟩,
    fun j s hs => ?_, fun q hq j n k p hp => ?_, congrArg Sequence.first swarGather1_eq,
    congrArg Sequence.first swarGather2_eq, congrArg Sequence.first swarGather3_eq⟩
  · rw [runRight_swarGather1, runRight_swarGather2, runRight_swarGather3]
    exact ⟨succeeds_gatherer (by decide) (.inl hs), succeeds_gatherer (by decide) (.inl hs),
      succeeds_gatherer (by decide) (.inl hs)⟩
  · obtain ⟨K, W, width, rfl, hK, hwidth⟩ := exists_gatherSequence_of_mem hq
    exact gatherSequence_disjoint hK hwidth j n.toNat hp

end Sys2Proof.Machine
end

section
/-! SUPPORT. Interleavings of any width (00_scope.md rule R15): in chunks, padded with zero bits, and in the order of
their coordinates. -/

namespace Sys2Proof.Machine

/-- A code of `a + b` bits per coordinate is the code of the low `a` bits, and above it that of the next `b` bits. -/
theorem interleave_add (a b : Nat) (vs : List Nat) (hvs : vs ≠ []) :
    interleave (a + b) vs = interleave a vs ||| (interleave b (vs.map (· >>> a)) <<< (vs.length * a)) := by
  refine Nat.eq_of_testBit_eq fun j => ?_
  have hpos : 0 < vs.length := List.length_pos_iff.mpr hvs
  have hget : ∀ d, (vs.map (· >>> a)).getD d 0 = vs.getD d 0 >>> a := fun d => by
    simpa using List.getD_map (l := vs) (n := d) (d := 0) (· >>> a)
  rw [Nat.testBit_or, Nat.testBit_shiftLeft, testBit_interleave _ _ _ hvs, testBit_interleave _ _ _ hvs,
    testBit_interleave _ _ _ (by simpa using hvs), List.length_map, hget, Nat.testBit_shiftRight]
  by_cases hj : j < vs.length * a
  · have hlt : j / vs.length < a := Nat.div_lt_of_lt_mul hj
    simp [hlt, Nat.lt_add_right b hlt, Nat.not_le.mpr hj]
  · rw [Nat.not_lt] at hj
    have hle : a ≤ j / vs.length := (Nat.le_div_iff_mul_le hpos).mpr (by rwa [Nat.mul_comm])
    have hsum : a + (j / vs.length - a) = j / vs.length := by omega
    have hiff : j / vs.length - a < b ↔ j / vs.length < a + b := by omega
    simp [hj, Nat.not_lt.mpr hle, Nat.sub_mul_div, Nat.sub_mul_mod hj, hsum, hiff]

theorem spread_eq_of_lt {n W V : Nat} (hn : n < 2 ^ W) (hWV : W ≤ V) (K : Nat) : spread n K V = spread n K W := by
  refine Nat.eq_of_testBit_eq fun j => ?_
  rw [testBit_spread, testBit_spread]
  by_cases hj : j / (K + 1) < W
  · simp [hj, Nat.lt_of_lt_of_le hj hWV]
  · have hbit : n.testBit (j / (K + 1)) = false :=
      Nat.testBit_lt_two_pow (lt_of_lt_of_le hn (Nat.pow_le_pow_right (by decide) (Nat.not_lt.mp hj)))
    simp [hbit]

/-- Widening the lanes adds nothing to coordinates that fit the narrow ones. -/
theorem interleave_eq_of_lt {W V : Nat} {vs : List Nat} (hvs : ∀ v ∈ vs, v < 2 ^ W) (hWV : W ≤ V) :
    interleave V vs = interleave W vs := by
  suffices hlanes : ∀ K d, lanesFrom K V d vs = lanesFrom K W d vs from hlanes _ _
  intro K
  induction vs with
  | nil => exact fun _ => rfl
  | cons v vs ih =>
    intro d
    obtain ⟨hv, hvs⟩ := List.forall_mem_cons.mp hvs
    rw [lanesFrom_cons, lanesFrom_cons, spread_eq_of_lt hv hWV, ih hvs]

/-- The lanes are disjoint, so their OR is their sum. -/
theorem lanesFrom_cons_eq_add {K d : Nat} {vs : List Nat} (hlanes : d + vs.length ≤ K) (W v : Nat) :
    lanesFrom K W d (v :: vs) = spread v K W <<< d + lanesFrom K W (d + 1) vs :=
  (add_eq_or_of_and_eq_zero (lane_and_lanesFrom_eq_zero v K W d (d + 1) vs (by omega) (by omega))).symm

/-- A greater coordinate gives a greater code, the others being the same: one term of a sum grows. -/
theorem interleave_set_lt {W e a b : Nat} {vs : List Nat} (he : e < vs.length) (hab : a % 2 ^ W < b % 2 ^ W) :
    interleave W (vs.set e a) < interleave W (vs.set e b) := by
  suffices hlanes : ∀ K d, d + vs.length ≤ K + 1 →
      lanesFrom K W d (vs.set e a) < lanesFrom K W d (vs.set e b) by
    rw [interleave, interleave, List.length_set, List.length_set]
    exact hlanes _ 0 (by omega)
  intro K
  induction vs generalizing e with
  | nil => cases he
  | cons v vs ih =>
    intro d hd
    rw [List.length_cons] at hd he
    cases e with
    | zero =>
      rw [List.set_cons_zero, List.set_cons_zero, lanesFrom_cons_eq_add (by omega), lanesFrom_cons_eq_add (by omega),
        Nat.shiftLeft_eq, Nat.shiftLeft_eq]
      exact Nat.add_lt_add_right
        (Nat.mul_lt_mul_of_pos_right ((spread_lt_spread_iff a b K W).mpr hab) (Nat.two_pow_pos d)) _
    | succ e =>
      rw [List.set_cons_succ, List.set_cons_succ, lanesFrom_cons_eq_add (by rw [List.length_set]; omega),
        lanesFrom_cons_eq_add (by rw [List.length_set]; omega)]
      exact Nat.add_lt_add_left (ih (by omega) (d + 1) (by omega)) _

end Sys2Proof.Machine
end

section
/-! SUPPORT. ENC2's chunk loop (42_morton_encode.md rules R121 and R122): how many chunks it runs, and that they are the
chunks of the direct interleaving. -/

namespace Sys2Proof.Machine

theorem bitLength_le_iff (v W : Nat) : bitLength v ≤ W ↔ v < 2 ^ W := by
  unfold bitLength
  split
  case isTrue h => simp [h]
  case isFalse h => rw [← Nat.log2_lt h]; omega

theorem enc2Iterations_le_iff (cx cy k : Nat) :
    enc2Iterations cx cy ≤ k ↔ cx < 2 ^ (16 * k) ∧ cy < 2 ^ (16 * k) := by
  rw [← bitLength_le_iff, ← bitLength_le_iff, enc2Iterations, ceilDiv]
  omega

theorem enc2Iterations_le_four (cx cy : Word) : enc2Iterations cx.toNat cy.toNat ≤ 4 :=
  (enc2Iterations_le_iff _ _ _).mpr ⟨cx.isLt, cy.isLt⟩

theorem interleave_pair (W x y : Nat) : interleave W [x, y] = spread x 1 W ||| (spread y 1 W <<< 1) := by
  simp [interleave, lanesFrom]

theorem enc2Chunk_eq_interleave (cx cy : Nat) : enc2Chunk cx cy = interleave 16 [cx, cy] := by
  rw [enc2Chunk, spread_mod_two_pow, spread_mod_two_pow, interleave_pair]

/-- `k` more chunks, from chunk `i` on, put the code of the low `16 * k` bits of each coordinate at bit `32 * i`. -/
theorem enc2Loop_eq_interleave (k i cx cy code : Nat) :
    enc2Loop k i cx cy code = code ||| (interleave (16 * k) [cx, cy] <<< (32 * i)) := by
  induction k generalizing i cx cy code with
  | zero => simp [enc2Loop, interleave, lanesFrom]
  | succ k ih =>
    have hsplit : interleave (16 * (k + 1)) [cx, cy] =
        interleave 16 [cx, cy] ||| (interleave (16 * k) [cx >>> 16, cy >>> 16] <<< 32) := by
      rw [Nat.mul_succ, Nat.add_comm, interleave_add 16 (16 * k) [cx, cy] (by simp)]
      rfl
    rw [enc2Loop, ih, enc2Chunk_eq_interleave, hsplit, Nat.shiftLeft_or_distrib, ← Nat.shiftLeft_add, Nat.or_assoc,
      Nat.mul_succ, Nat.add_comm 32]

/-- The loop gives one code for every number of chunks from its bound up. -/
theorem enc2Loop_eq_enc2Code {cx cy k : Nat} (h : enc2Iterations cx cy ≤ k) :
    enc2Loop k 0 cx cy 0 = enc2Code cx cy := by
  have hfit : ∀ v ∈ [cx, cy], v < 2 ^ (16 * enc2Iterations cx cy) := by
    simpa using (enc2Iterations_le_iff cx cy _).mp le_rfl
  rw [enc2Code, enc2Loop_eq_interleave, enc2Loop_eq_interleave, interleave_eq_of_lt hfit (by omega)]

theorem enc2Code_eq_interleave (cx cy : Word) : enc2Code cx.toNat cy.toNat = interleave 64 [cx.toNat, cy.toNat] := by
  rw [← enc2Loop_eq_enc2Code (enc2Iterations_le_four cx cy), enc2Loop_eq_interleave]
  simp

end Sys2Proof.Machine
end

section
/-! SUPPORT. The code of a list of words as the results of a command (42_morton_encode.md rule R120): where its bits are in
RES1:RES0, and which codes fit. -/

namespace Sys2Proof.Machine

/-- The code of the words `vs`, `W` bits of each (42_morton_encode.md rule R120). -/
def codeOf (W : Nat) (vs : List Word) : Nat := interleave W (vs.map BitVec.toNat)

/-- The results of a command that leaves the code in RES1:RES0. -/
def codeResults (W : Nat) (vs : List Word) : Results :=
  ⟨Word.ofExact (codeOf W vs), Word.ofExact (codeOf W vs >>> 64), 0#64, 0#64⟩

theorem codeOf_lt {W k : Nat} {vs : List Word} (h : W * vs.length ≤ k) : codeOf W vs < 2 ^ k :=
  (interleave_lt W _).trans_le (Nat.pow_le_pow_right (by decide) (by rwa [List.length_map]))

/-- Bit `i` of coordinate `d` is bit `D*i + d` of the code (00_scope.md rule R15). -/
theorem testBit_codeOf {W : Nat} {vs : List Word} (D d : Nat) (hlen : vs.length = D) {i j : Nat} (hd : d < D)
    (hi : i < W) (hj : j = D * i + d) : (codeOf W vs).testBit j = (vs.getD d 0#64).getLsbD i := by
  subst hlen hj
  have hbit := testBit_interleave_lane W d i (vs.map BitVec.toNat) (by simpa using hd) hi
  have hget : (vs.map BitVec.toNat).getD d 0 = (vs.getD d 0#64).toNat := List.getD_map vs 0#64 BitVec.toNat
  rwa [List.length_map, hget, BitVec.testBit_toNat, Nat.add_comm, Nat.mul_comm] at hbit

/-- RES0 holds the low 64 bits of the code. -/
theorem getLsbD_codeResults_r0 {W : Nat} {vs : List Word} (D d : Nat) (hlen : vs.length = D) {i j : Nat}
    (hd : d < D) (hi : i < W) (hj : j = D * i + d) (hlow : j < 64) :
    (codeResults W vs).r0.getLsbD j = (vs.getD d 0#64).getLsbD i := by
  rw [codeResults, getLsbD_ofExact, decide_eq_true hlow, Bool.true_and, testBit_codeOf D d hlen hd hi hj]

/-- RES1 holds the 64 bits of the code above them. -/
theorem getLsbD_codeResults_r1 {W : Nat} {vs : List Word} (D d : Nat) (hlen : vs.length = D) {i j : Nat}
    (hd : d < D) (hi : i < W) (hj : 64 + j = D * i + d) (hlow : j < 64) :
    (codeResults W vs).r1.getLsbD j = (vs.getD d 0#64).getLsbD i := by
  rw [codeResults, getLsbD_ofExact, decide_eq_true hlow, Bool.true_and, Nat.testBit_shiftRight,
    testBit_codeOf D d hlen hd hi hj]

/-- No bit of RES0 is above the code. -/
theorem getLsbD_codeResults_r0_above {W : Nat} {vs : List Word} (D : Nat) (hlen : vs.length = D) {j : Nat}
    (hj : W * D ≤ j) : (codeResults W vs).r0.getLsbD j = false := by
  subst hlen
  rw [codeResults, getLsbD_ofExact, codeOf, testBit_interleave_above _ _ _ (by rwa [List.length_map]), Bool.and_false]

/-- A code of 64 bits leaves RES1 zero. -/
theorem codeResults_eq_one {W : Nat} {vs : List Word} (h : codeOf W vs < 2 ^ 64) :
    codeResults W vs = .one (Word.ofExact (codeOf W vs)) := by
  rw [codeResults, Nat.shiftRight_eq_zero _ _ h, Results.one]

/-- RES1 and RES0 hold all of a code of 128 bits. -/
theorem toNat_codeResults {W : Nat} {vs : List Word} (h : W * vs.length ≤ 128) :
    ((codeResults W vs).r1 ++ (codeResults W vs).r0).toNat = codeOf W vs := by
  have hlt : codeOf W vs < 2 ^ 128 := codeOf_lt h
  rw [BitVec.toNat_append, codeResults, BitVec.toNat_ofNat, BitVec.toNat_ofNat,
    ← Nat.shiftLeft_add_eq_or_of_lt (Nat.mod_lt _ (by decide)), Nat.shiftLeft_eq, Nat.shiftRight_eq_div_pow]
  omega

end Sys2Proof.Machine
end

section
/-! SUPPORT. The encoder commands (42_morton_encode.md rules R121 to R124): each leaves in RES1:RES0 the interleaving of
its operands, of the width of its domain. -/

namespace Sys2Proof.Machine

/-- The values of the registers a command reads, in the order of its arguments (30_encoding.md rule R62). -/
def operandValues (i : Instr) (s : State) : List Word := (operandRegs i).map s.reg

theorem operandValues_enc2 (s : State) : operandValues .enc2 s = [s.opa, s.opb] := rfl

theorem operandValues_enc3 (s : State) : operandValues .enc3 s = [s.opa, s.opb, s.opc] := rfl

theorem operandValues_enc4 (s : State) : operandValues .enc4 s = [s.opa, s.opb, s.opc, s.opd] := rfl

theorem length_operandValues (i : Instr) (s : State) : (operandValues i s).length = (operandRegs i).length :=
  List.length_map _

/-- A write to an operand register changes that register's value and no other. -/
theorem State.reg_store_eq_update {r : Reg} (hr : r ∈ [Reg.opa, Reg.opb, Reg.opc, Reg.opd]) (v : Word) (s : State) :
    (s.store r v).reg = Function.update s.reg r v := by
  funext q
  simp only [List.mem_cons, List.not_mem_nil, or_false] at hr
  obtain rfl | rfl | rfl | rfl := hr <;> cases q <;> rfl

/-- A command reads each operand register once, so a write to one replaces one of its values. -/
theorem operandValues_store {i : Instr} {r : Reg} (hr : r ∈ operandRegs i) (v : Word) (s : State) :
    operandValues i (s.store r v) = (operandValues i s).set ((operandRegs i).idxOf r) v := by
  have hnodup : (operandRegs i).Nodup := by cases i <;> decide
  have hsub : operandRegs i ⊆ [Reg.opa, Reg.opb, Reg.opc, Reg.opd] := by cases i <;> decide
  rw [operandValues, State.reg_store_eq_update (hsub hr), hnodup.map_update, if_pos hr, operandValues]

/-- The three encoders with the bits of their domain (42_morton_encode.md rules R121, R123 and R124). -/
def encoders : List (Instr × Nat) := [(.enc2, 64), (.enc3, 10), (.enc4, 16)]

/-- An encoder's code fits the two registers and is the interleaving of its operands, whose low `W` bits are its
domain. -/
theorem encoder_spec {i : Instr} {W : Nat} (hi : (i, W) ∈ encoders) :
    W * (operandRegs i).length ≤ 128 ∧ (∀ s, commandResults i s = codeResults W (operandValues i s)) ∧
    ∀ s, OutOfDomain i s → ∃ v ∈ operandValues i s, 2 ^ W ≤ v.toNat := by
  simp only [encoders, List.mem_cons, Prod.mk.injEq, List.not_mem_nil, or_false] at hi
  obtain ⟨rfl, rfl⟩ | ⟨rfl, rfl⟩ | ⟨rfl, rfl⟩ := hi
  · refine ⟨by decide, fun s => ?_, fun _ => False.elim⟩
    rw [commandResults, enc2Code_eq_interleave]
    rfl
  · refine ⟨by decide, fun s => (codeResults_eq_one (codeOf_lt (show 10 * 3 ≤ 64 by decide))).symm, fun s h => ?_⟩
    simpa [operandValues_enc3, OutOfDomain] using h
  · refine ⟨by decide, fun s => (codeResults_eq_one (codeOf_lt (show 16 * 4 ≤ 64 by decide))).symm, fun s h => ?_⟩
    simpa [operandValues_enc4, OutOfDomain] using h

section Encoder

variable {i : Instr} {W : Nat} (hi : (i, W) ∈ encoders)
include hi

theorem succeeds_encoder {s : State} (h : s.strict = false ∨ ∀ v ∈ operandValues i s, v.toNat < 2 ^ W) :
    Succeeds i s (codeResults W (operandValues i s)).r0 (codeResults W (operandValues i s)).r1 0#64 0#64 := by
  obtain ⟨-, hres, hdomain⟩ := encoder_spec hi
  have hsucc := succeeds_of_inside (h.imp_right fun hin hout =>
    have ⟨v, hv, hle⟩ := hdomain s hout
    Nat.not_lt.mpr hle (hin v hv))
  rwa [hres] at hsucc

/-- An encoder whose code fits one register leaves RES1 zero. -/
theorem succeeds_narrow_encoder (hfit : W * (operandRegs i).length ≤ 64) {s : State}
    (h : s.strict = false ∨ ∀ v ∈ operandValues i s, v.toNat < 2 ^ W) :
    Succeeds i s (codeResults W (operandValues i s)).r0 0#64 0#64 0#64 := by
  have hcode : codeOf W (operandValues i s) < 2 ^ 64 := codeOf_lt (by rwa [length_operandValues])
  have hsucc := succeeds_encoder hi h
  rwa [codeResults_eq_one hcode] at hsucc ⊢

/-- An encoder on operands whose code is known. -/
theorem succeeds_encoder_of_values (vs : List Word) {r0 r1 : Word}
    (hcode : codeResults W vs = ⟨r0, r1, 0#64, 0#64⟩) {s : State} (hvs : operandValues i s = vs)
    (h : s.strict = false ∨ ∀ v ∈ vs, v.toNat < 2 ^ W) : Succeeds i s r0 r1 0#64 0#64 := by
  rw [← hvs] at hcode h
  have hsucc := succeeds_encoder hi h
  rwa [hcode] at hsucc

/-- An encoder that ends with no error leaves its code in RES1:RES0. -/
theorem toNat_results_of_exec_encoder {s t : State} (h : exec i s = .next t) (herr : t.err = false) :
    (t.res1 ++ t.res0).toNat = codeOf W (operandValues i s) := by
  obtain ⟨hfits, hres, -⟩ := encoder_spec hi
  by_cases hout : s.strict = true ∧ OutOfDomain i s
  · cases (exec_of_outside hout.1 hout.2).symm.trans h
    simp at herr
  · rw [not_and_or, Bool.not_eq_true] at hout
    cases (exec_of_inside hout).symm.trans h
    rw [hres]
    exact toNat_codeResults (by rwa [length_operandValues])

/-- A table of operands and results is a table of commands that complete, in strict mode too for operands in the
domain. -/
theorem succeeds_encoder_of_table {α β : Type} {table : List (α × β)} (values : α → List Word) (r0 r1 : β → Word)
    (htable : table.map (fun p => codeResults W (values p.1)) = table.map fun p => ⟨r0 p.2, r1 p.2, 0#64, 0#64⟩) :
    ∀ p ∈ table, ∀ s : State, operandValues i s = values p.1 →
      (s.strict = false ∨ ∀ v ∈ values p.1, v.toNat < 2 ^ W) → Succeeds i s (r0 p.2) (r1 p.2) 0#64 0#64 := fun p hp _ =>
  succeeds_encoder_of_values hi _ (List.map_inj_left.mp htable p hp)

/-- Raising one coordinate within the domain raises the code (42_morton_encode.md rule R126). -/
theorem encoder_lt_of_raise {s : State} {put : Word → State} (hput : put ∈ (operandRegs i).map fun r v => s.store r v)
    {a b : Word} (hab : a.toNat < b.toNat) (hb : b.toNat < 2 ^ W) {t u : State} (ht : exec i (put a) = .next t)
    (hu : exec i (put b) = .next u) (hterr : t.err = false) (huerr : u.err = false) :
    (t.res1 ++ t.res0).toNat < (u.res1 ++ u.res0).toNat := by
  obtain ⟨r, hr, rfl⟩ := List.mem_map.mp hput
  rw [toNat_results_of_exec_encoder hi ht hterr, toNat_results_of_exec_encoder hi hu huerr, operandValues_store hr,
    operandValues_store hr, codeOf, codeOf, List.map_set, List.map_set]
  refine interleave_set_lt ?_ ?_
  · rw [List.length_map, length_operandValues]
    exact List.idxOf_lt_length_iff.mpr hr
  · rwa [Nat.mod_eq_of_lt (hab.trans hb), Nat.mod_eq_of_lt hb]

end Encoder

end Sys2Proof.Machine
end

section
/-! SUPPORT. The rules of ENC2, ENC3 and ENC4 (42_morton_encode.md rules R121 to R124 and R126). -/

namespace Sys2Proof.Machine

/-- ENC2 has no strict check: every word is in its domain (42_morton_encode.md rule R121). -/
theorem succeeds_enc2 (s : State) :
    Succeeds .enc2 s (codeResults 64 [s.opa, s.opb]).r0 (codeResults 64 [s.opa, s.opb]).r1 0#64 0#64 :=
  succeeds_encoder (by decide) (.inr fun v _ => v.isLt)

/-- Settles O54: every number of chunks from the bound up gives the direct interleaving, whose words ENC2 leaves. -/
theorem enc2ClosedForm : Obligations.Enc2ClosedForm := by
  unfold Obligations.Enc2ClosedForm
  have hcode : ∀ cx cy : Word, enc2Code cx.toNat cy.toNat = codeOf 64 [cx, cy] := enc2Code_eq_interleave
  refine ⟨fun cx cy => (hcode cx cy).trans (interleave_pair _ _ _), fun cx cy i hi => ?_,
    fun _ _ _ => enc2Loop_eq_enc2Code, fun cx cy => enc2Loop_eq_enc2Code (enc2Iterations_le_four cx cy),
    fun s => ⟨_, _, succeeds_enc2 s, (toNat_codeResults le_rfl).trans (interleave_pair _ _ _)⟩⟩
  rw [hcode]
  exact ⟨testBit_codeOf 2 0 rfl (by decide) hi rfl, testBit_codeOf 2 1 rfl (by decide) hi rfl⟩

/-- Settles O21: the code's low half in RES0, its high half in RES1, and the listed values by evaluation. -/
theorem enc2InterleavesTwoWords : Obligations.Enc2InterleavesTwoWords := by
  unfold Obligations.Enc2InterleavesTwoWords
  refine ⟨decode_encode .enc2, fun s => ⟨_, _, succeeds_enc2 s, fun i hi => ⟨?_, ?_, ?_, ?_⟩, fun ha hb => ?_⟩,
    enc2Iterations_le_four, by decide, by decide, fun p hp s ha hb => ?_⟩
  · exact getLsbD_codeResults_r0 2 0 rfl (by decide) (by omega) rfl (by omega)
  · exact getLsbD_codeResults_r0 2 1 rfl (by decide) (by omega) rfl (by omega)
  · exact getLsbD_codeResults_r1 2 0 rfl (by decide) (by omega) (by omega) (by omega)
  · exact getLsbD_codeResults_r1 2 1 rfl (by decide) (by omega) (by omega) (by omega)
  · have hnarrow : codeOf 64 [s.opa, s.opb] = codeOf 16 [s.opa, s.opb] :=
      interleave_eq_of_lt (by simpa using ⟨ha, hb⟩) (by decide)
    have hlt : codeOf 16 [s.opa, s.opb] < 2 ^ 64 := codeOf_lt (show 16 * 2 ≤ 64 by decide)
    exact congrArg Results.r1 (codeResults_eq_one (hnarrow.trans_lt hlt))
  · exact succeeds_encoder_of_table (by decide) (fun v => [v.1, v.2]) Prod.fst Prod.snd (by decide) p hp s
      (by rw [operandValues_enc2, ha, hb]) (.inr fun v _ => v.isLt)

/-- Settles O22: the bits of the code, the strict check, and the listed values by evaluation. -/
theorem enc3InterleavesTenBitTriples : Obligations.Enc3InterleavesTenBitTriples := by
  unfold Obligations.Enc3InterleavesTenBitTriples
  have hi : (Instr.enc3, 10) ∈ encoders := by decide
  refine ⟨decode_encode .enc3, fun s h => ⟨_, succeeds_narrow_encoder hi (by decide) (h.imp_right fun hin => ?_),
      fun i hlt => ⟨?_, ?_, ?_⟩, fun j hj => getLsbD_codeResults_r0_above (W := 10) 3 rfl hj⟩,
    fun s hs h => raisesDomain_of_outside hs h, fun p hp s hs ha hb hc => ?_⟩
  · simpa [operandValues_enc3] using hin
  · exact getLsbD_codeResults_r0 3 0 rfl (by decide) hlt rfl (by omega)
  · exact getLsbD_codeResults_r0 3 1 rfl (by decide) hlt rfl (by omega)
  · exact getLsbD_codeResults_r0 3 2 rfl (by decide) hlt rfl (by omega)
  · exact succeeds_encoder_of_table hi (fun v => [v.1, v.2.1, v.2.2]) id (fun _ => 0#64) (by decide) p hp s
      (by rw [operandValues_enc3, ha, hb, hc]) (.inl hs)

/-- Settles O23, as for ENC3, with the 16 bits and four lanes of rule R124, which fill the register. -/
theorem enc4InterleavesSixteenBitQuads : Obligations.Enc4InterleavesSixteenBitQuads := by
  unfold Obligations.Enc4InterleavesSixteenBitQuads
  have hi : (Instr.enc4, 16) ∈ encoders := by decide
  refine ⟨decode_encode .enc4, fun s h => ⟨_, succeeds_narrow_encoder hi (by decide) (h.imp_right fun hin => ?_),
      fun i hlt => ⟨?_, ?_, ?_, ?_⟩⟩,
    fun s hs h => raisesDomain_of_outside hs h, fun p hp s hs ha hb hc hd => ?_⟩
  · simpa [operandValues_enc4] using hin
  · exact getLsbD_codeResults_r0 4 0 rfl (by decide) hlt rfl (by omega)
  · exact getLsbD_codeResults_r0 4 1 rfl (by decide) hlt rfl (by omega)
  · exact getLsbD_codeResults_r0 4 2 rfl (by decide) hlt rfl (by omega)
  · exact getLsbD_codeResults_r0 4 3 rfl (by decide) hlt rfl (by omega)
  · exact succeeds_encoder_of_table hi (fun v => [v.1, v.2.1, v.2.2.1, v.2.2.2]) id (fun _ => 0#64) (by decide) p hp s
      (by rw [operandValues_enc4, ha, hb, hc, hd]) (.inl hs)

/-- ENC2 ends with no error, in strict mode too (42_morton_encode.md rule R121). -/
theorem err_of_exec_enc2 {s t : State} (h : exec .enc2 s = .next t) : t.err = false := by
  cases (exec_of_inside (i := .enc2) (s := s) (.inr not_false)).symm.trans h
  rfl

/-- A command that defines only output 0 and ends with no error leaves RES1 zero (10_state.md rule R22). -/
theorem toNat_res1_append_res0 {s t : State} {i : Instr} (hi : i ∉ [Instr.enc2, Instr.dec2, Instr.dec3, Instr.dec4])
    (h : exec i s = .next t) (herr : t.err = false) : (t.res1 ++ t.res0).toNat = t.res0.toNat := by
  obtain ⟨hzero, -, -⟩ := resultRegistersHoldTheLastSuccess.1 i s t h |>.1 herr
  rw [hzero hi, BitVec.toNat_append]
  simp

/-- Settles O51: values by evaluation, and the order of the codes from the order of one coordinate. -/
theorem encoderLaws : Obligations.EncoderLaws := by
  unfold Obligations.EncoderLaws
  have h2 : (Instr.enc2, 64) ∈ encoders := by decide
  have h3 : (Instr.enc3, 10) ∈ encoders := by decide
  have h4 : (Instr.enc4, 16) ∈ encoders := by decide
  refine ⟨fun i hi s ha hb hc hd => ?_, fun s => ⟨fun ha hb => ?_, fun ha hb hc => ?_, fun ha hb hc hd => ?_⟩,
    fun s t u a b hab put hput ht hu => ?_, fun s t u a b hab hb put hput ht hu hterr huerr => ?_,
    fun s t u a b hab hb put hput ht hu hterr huerr => ?_, fun s hb => ⟨fun ha => ?_, fun ha => ?_⟩⟩
  · simp only [List.mem_cons, List.not_mem_nil, or_false] at hi
    obtain rfl | rfl | rfl := hi
    · exact succeeds_encoder_of_values h2 [0#64, 0#64] (by decide)
        (by rw [operandValues_enc2, ha, hb]) (.inr (by simp))
    · exact succeeds_encoder_of_values h3 [0#64, 0#64, 0#64] (by decide)
        (by rw [operandValues_enc3, ha, hb, hc]) (.inr (by simp))
    · exact succeeds_encoder_of_values h4 [0#64, 0#64, 0#64, 0#64] (by decide)
        (by rw [operandValues_enc4, ha, hb, hc, hd]) (.inr (by simp))
  · exact succeeds_encoder_of_values h2 [0xFFFFFFFFFFFFFFFF#64, 0xFFFFFFFFFFFFFFFF#64] (by decide)
      (by rw [operandValues_enc2, ha, hb]) (.inr (by simp))
  · exact succeeds_encoder_of_values h3 [0x3FF#64, 0x3FF#64, 0x3FF#64] (by decide)
      (by rw [operandValues_enc3, ha, hb, hc]) (.inr (by simp))
  · exact succeeds_encoder_of_values h4 [0xFFFF#64, 0xFFFF#64, 0xFFFF#64, 0xFFFF#64] (by decide)
      (by rw [operandValues_enc4, ha, hb, hc, hd]) (.inr (by simp))
  · exact encoder_lt_of_raise h2 hput hab b.isLt ht hu (err_of_exec_enc2 ht) (err_of_exec_enc2 hu)
  · rw [← toNat_res1_append_res0 (by decide) ht hterr, ← toNat_res1_append_res0 (by decide) hu huerr]
    exact encoder_lt_of_raise h3 hput hab hb ht hu hterr huerr
  · rw [← toNat_res1_append_res0 (by decide) ht hterr, ← toNat_res1_append_res0 (by decide) hu huerr]
    exact encoder_lt_of_raise h4 hput hab hb ht hu hterr huerr
  · exact succeeds_encoder_of_values h2 [0x7FFF#64, 0#64] (by decide)
      (by rw [operandValues_enc2, ha, hb]) (.inr (by simp))
  · exact succeeds_encoder_of_values h2 [0x8000#64, 0#64] (by decide)
      (by rw [operandValues_enc2, ha, hb]) (.inr (by simp))

end Sys2Proof.Machine
end

section
/-! SUPPORT. Coordinates of any width (43_morton_decode.md rule R140): that they undo an interleaving and are undone
by it, and that they come in chunks. -/

namespace Sys2Proof.Machine

/-- An interleaving's coordinates are the low `W` bits of what was interleaved. -/
theorem coordinate_interleave (W : Nat) {d : Nat} {vs : List Nat} (hd : d < vs.length) :
    coordinate vs.length W (interleave W vs) d = vs.getD d 0 % 2 ^ W := by
  refine Nat.eq_of_testBit_eq fun i => ?_
  rw [testBit_coordinate _ _ _ _ _ (by omega), Nat.testBit_mod_two_pow]
  by_cases hi : i < W
  · rw [testBit_interleave_lane W d i vs hd hi]
  · simp [hi]

/-- Bit `j` of a code is bit `j / D` of its coordinate `j % D`. -/
theorem interleave_coordinates {D : Nat} (hD : 1 ≤ D) (W n : Nat) :
    interleave W ((List.range D).map (coordinate D W n)) = n % 2 ^ (D * W) := by
  refine Nat.eq_of_testBit_eq fun j => ?_
  have hne : (List.range D).map (coordinate D W n) ≠ [] := by
    rw [Ne, List.map_eq_nil_iff, List.range_eq_nil]
    omega
  have hget : ((List.range D).map (coordinate D W n)).getD (j % D) 0 = coordinate D W n (j % D) := by
    simp [List.getD_eq_getElem?_getD, List.getElem?_range (Nat.mod_lt j hD)]
  have hlt : j / D < W ↔ j < D * W := by rw [Nat.div_lt_iff_lt_mul hD, Nat.mul_comm]
  rw [testBit_interleave _ _ _ hne, List.length_map, List.length_range, hget, testBit_coordinate _ _ _ _ _ hD,
    Nat.mod_add_div', Nat.testBit_mod_two_pow, ← Bool.and_assoc, Bool.and_self, decide_eq_decide.mpr hlt]

/-- A coordinate's low `a` bits come from the low `D*a` bits of the code, and the next `b` bits from those above. -/
theorem coordinate_add {D : Nat} (hD : 1 ≤ D) (a b n d : Nat) :
    coordinate D (a + b) n d = coordinate D a n d ||| (coordinate D b (n >>> (D * a)) d <<< a) := by
  refine Nat.eq_of_testBit_eq fun i => ?_
  rw [Nat.testBit_or, Nat.testBit_shiftLeft, testBit_coordinate _ _ _ _ _ hD, testBit_coordinate _ _ _ _ _ hD,
    testBit_coordinate _ _ _ _ _ hD, Nat.testBit_shiftRight]
  by_cases hi : i < a
  · simp [hi, Nat.lt_add_right b hi, Nat.not_le.mpr hi]
  · obtain ⟨k, rfl⟩ := Nat.exists_eq_add_of_le (Nat.not_lt.mp hi)
    have hpos : D * a + (d + k * D) = d + (a + k) * D := by ring
    simp [hpos]

/-- More bits of a coordinate add nothing where the code has no more bits. -/
theorem coordinate_eq_of_lt {D W V n : Nat} (hD : 1 ≤ D) (hn : n < 2 ^ (D * W)) (hWV : W ≤ V) (d : Nat) :
    coordinate D V n d = coordinate D W n d := by
  obtain ⟨k, rfl⟩ := Nat.exists_eq_add_of_le hWV
  have hrest : coordinate D k 0 d = 0 := by rw [coordinate, Nat.zero_shiftRight, gather_of_zero]
  rw [coordinate_add hD, Nat.shiftRight_eq_zero _ _ hn, hrest, Nat.zero_shiftLeft, Nat.or_zero]

theorem coordinate_lt (D W n d : Nat) : coordinate D W n d < 2 ^ W := gather_lt _ _ _

end Sys2Proof.Machine
end

section
/-! SUPPORT. DEC2's chunk loop (43_morton_decode.md rules R141 and R144): how many chunks it runs, and that they are the
chunks of the two direct gatherings. -/

namespace Sys2Proof.Machine

theorem dec2Iterations_le_iff (n k : Nat) : dec2Iterations n ≤ k ↔ n < 2 ^ (32 * k) := by
  rw [← bitLength_le_iff, dec2Iterations, ceilDiv]
  omega

theorem dec2Iterations_le_four (n : BitVec 128) : dec2Iterations n.toNat ≤ 4 :=
  (dec2Iterations_le_iff _ _).mpr n.isLt

/-- `k` more chunks, from chunk `i` on, put the next `16 * k` bits of each coordinate at bit `16 * i`. -/
theorem dec2Loop_eq_coordinates (k i n cx cy : Nat) :
    dec2Loop k i n cx cy =
      (cx ||| (coordinate 2 (16 * k) n 0 <<< (16 * i)), cy ||| (coordinate 2 (16 * k) n 1 <<< (16 * i))) := by
  induction k generalizing i n cx cy with
  | zero => simp [dec2Loop, coordinate]
  | succ k ih =>
    have hchunk : ∀ c d,
        c ||| (gather (n >>> d) 1 16 <<< (16 * i)) ||| (coordinate 2 (16 * k) (n >>> 32) d <<< (16 * (i + 1))) =
          c ||| (coordinate 2 (16 * (k + 1)) n d <<< (16 * i)) := by
      intro c d
      rw [Nat.mul_succ 16 k, Nat.add_comm _ 16, coordinate_add (by decide), Nat.shiftLeft_or_distrib,
        ← Nat.shiftLeft_add, Nat.or_assoc, Nat.mul_succ, Nat.add_comm 16]
      rfl
    rw [dec2Loop, ih, ← hchunk, ← hchunk, Nat.shiftRight_zero]

/-- The loop gives one pair of coordinates for every number of chunks from its bound up. -/
theorem dec2Loop_eq_dec2Coordinates {n k : Nat} (h : dec2Iterations n ≤ k) :
    dec2Loop k 0 n 0 0 = dec2Coordinates n := by
  have hfit : n < 2 ^ (2 * (16 * dec2Iterations n)) := by
    rw [← Nat.mul_assoc]
    exact (dec2Iterations_le_iff n _).mp le_rfl
  have hwiden := coordinate_eq_of_lt (by decide) hfit (Nat.mul_le_mul_left 16 h)
  rw [dec2Coordinates, dec2Loop_eq_coordinates, dec2Loop_eq_coordinates, hwiden, hwiden]

theorem dec2Coordinates_eq_coordinates (n : BitVec 128) :
    dec2Coordinates n.toNat = (coordinate 2 64 n.toNat 0, coordinate 2 64 n.toNat 1) := by
  rw [← dec2Loop_eq_dec2Coordinates (dec2Iterations_le_four n), dec2Loop_eq_coordinates]
  simp

end Sys2Proof.Machine
end

section
/-! SUPPORT. The coordinates of a code as the results of a command (43_morton_decode.md rule R140): where their bits
are, and that words and codes undo each other. -/

namespace Sys2Proof.Machine

/-- The word a decoder leaves in RESd (43_morton_decode.md rule R140). -/
def coordinateWord (D W n d : Nat) : Word := Word.ofExact (coordinate D W n d)

/-- The words of all coordinates of a code of arity `D`. -/
def coordinateWords (D W n : Nat) : List Word := (List.range D).map (coordinateWord D W n)

/-- The results of a command that leaves these words in the first result registers (10_state.md rule R22). -/
def Results.ofList (vs : List Word) : Results :=
  ⟨vs.getD 0 0#64, vs.getD 1 0#64, vs.getD 2 0#64, vs.getD 3 0#64⟩

section Fits

variable {W : Nat} (hW : W ≤ 64)
include hW

theorem toNat_coordinateWord (D n d : Nat) : (coordinateWord D W n d).toNat = coordinate D W n d := by
  rw [coordinateWord, BitVec.toNat_ofNat,
    Nat.mod_eq_of_lt ((coordinate_lt D W n d).trans_le (Nat.pow_le_pow_right (by decide) hW))]

theorem getLsbD_coordinateWord {D : Nat} (hD : 1 ≤ D) (n d i : Nat) :
    (coordinateWord D W n d).getLsbD i = (decide (i < W) && n.testBit (d + i * D)) := by
  rw [← BitVec.testBit_toNat, toNat_coordinateWord hW, testBit_coordinate _ _ _ _ _ hD]

theorem coordinateBits_coordinateWord {D : Nat} (hD : 1 ≤ D) (d : Nat) (v : Word) :
    CoordinateBits D W d v (coordinateWord D W v.toNat d) := by
  refine ⟨fun i hi => ?_, fun j hj => ?_⟩
  · rw [getLsbD_coordinateWord hW hD, decide_eq_true hi, Bool.true_and, BitVec.testBit_toNat]
  · rw [getLsbD_coordinateWord hW hD, decide_eq_false (Nat.not_lt.mpr hj), Bool.false_and]

/-- Decoding a code of words gives their low `W` bits (43_morton_decode.md rule R145). -/
theorem toNat_coordinateWord_codeOf {vs : List Word} (D : Nat) {d : Nat} (hlen : vs.length = D) (hd : d < D) :
    (coordinateWord D W (codeOf W vs) d).toNat = (vs.getD d 0#64).toNat % 2 ^ W := by
  have hget : (vs.map BitVec.toNat).getD d 0 = (vs.getD d 0#64).toNat := List.getD_map vs 0#64 BitVec.toNat
  have hcoord := coordinate_interleave W (d := d) (vs := vs.map BitVec.toNat) (by rwa [List.length_map, hlen])
  rwa [List.length_map, hlen, hget, ← codeOf, ← toNat_coordinateWord hW] at hcoord

/-- Encoding the coordinates of a code gives the code's low `D * W` bits (43_morton_decode.md rule R145). -/
theorem codeOf_coordinateWords {D : Nat} (hD : 1 ≤ D) (n : Nat) :
    codeOf W (coordinateWords D W n) = n % 2 ^ (D * W) := by
  rw [codeOf, coordinateWords, List.map_map, ← interleave_coordinates hD]
  exact congrArg _ (List.map_congr_left fun d _ => toNat_coordinateWord hW D n d)

end Fits

/-- Coordinates of the register's width come back whole. -/
theorem coordinateWord_codeOf_eq {vs : List Word} (D : Nat) {d : Nat} (hlen : vs.length = D) (hd : d < D) :
    coordinateWord D 64 (codeOf 64 vs) d = vs.getD d 0#64 :=
  BitVec.eq_of_toNat_eq <|
    (toNat_coordinateWord_codeOf le_rfl D hlen hd).trans (Nat.mod_eq_of_lt (vs.getD d 0#64).isLt)

/-- A register's low `W` bits are the register exactly when it is below `2 ^ W`. -/
theorem eq_iff_lt_of_toNat_eq_mod {r v : Word} {W : Nat} (h : r.toNat = v.toNat % 2 ^ W) :
    r = v ↔ v.toNat < 2 ^ W := by
  rw [← BitVec.toNat_inj, h, Nat.mod_eq_iff_lt (Nat.two_pow_pos W).ne']

/-- A code of 64 bits stands whole in RES0. -/
theorem toNat_codeResults_r0 {W : Nat} {vs : List Word} (D : Nat) (hlen : vs.length = D) (h : W * D ≤ 64) :
    (codeResults W vs).r0.toNat = codeOf W vs := by
  subst hlen
  exact Nat.mod_eq_of_lt (codeOf_lt h)

theorem toNat_codeResults_coordinateWords_r0 {D W : Nat} (hD : 1 ≤ D) (h : W * D ≤ 64) (n : Nat) :
    (codeResults W (coordinateWords D W n)).r0.toNat = n % 2 ^ (D * W) := by
  have hlen : (coordinateWords D W n).length = D := by rw [coordinateWords, List.length_map, List.length_range]
  rw [toNat_codeResults_r0 D hlen h, codeOf_coordinateWords ((Nat.le_mul_of_pos_right W hD).trans h) hD]

end Sys2Proof.Machine
end

section
/-! SUPPORT. The decoder commands (43_morton_decode.md rules R141 to R143): each leaves in its result registers the
coordinates of its code. -/

namespace Sys2Proof.Machine

/-- The three decoders with their arity and the bits of each coordinate (43_morton_decode.md rules R141 to R143). -/
def decoders : List (Instr × Nat × Nat) := [(.dec2, 2, 64), (.dec3, 3, 10), (.dec4, 4, 16)]

/-- The code a decoder reads: DEC2's is in OPB:OPA, the others' in OPA (43_morton_decode.md rules R141 to R143). -/
def decoderCode (i : Instr) (s : State) : Nat :=
  match i with
  | .dec2 => s.code128.toNat
  | _ => s.opa.toNat

theorem commandResults_decoder {i : Instr} {D W : Nat} (hi : (i, D, W) ∈ decoders) (s : State) :
    commandResults i s = .ofList (coordinateWords D W (decoderCode i s)) := by
  simp only [decoders, List.mem_cons, Prod.mk.injEq, List.not_mem_nil, or_false] at hi
  obtain ⟨rfl, rfl, rfl⟩ | ⟨rfl, rfl, rfl⟩ | ⟨rfl, rfl, rfl⟩ := hi
  · rw [commandResults, dec2Coordinates_eq_coordinates]
    rfl
  · rfl
  · rfl

section Decoder

variable {i : Instr} {D W : Nat} (hi : (i, D, W) ∈ decoders)
include hi

theorem exec_decoder {s : State} {n : Nat} (hs : s.strict = false) (hcode : decoderCode i s = n) :
    exec i s = .next (s.succeed (.ofList (coordinateWords D W n))) := by
  rw [exec_of_inside (.inl hs), commandResults_decoder hi, hcode]

theorem succeeds_decoder {s : State} {n : Nat} {r : Results} (h : s.strict = false ∨ ¬ OutOfDomain i s)
    (hcode : decoderCode i s = n) (hr : .ofList (coordinateWords D W n) = r) : Succeeds i s r.r0 r.r1 r.r2 r.r3 := by
  have hsucc := succeeds_of_inside h
  rwa [commandResults_decoder hi, hcode, hr] at hsucc

/-- A table of codes and results is a table of commands that complete. -/
theorem succeeds_decoder_of_table {α β : Type} {table : List (α × β)} (code : α → Nat) (results : β → Results)
    (htable :
      table.map (fun p => Results.ofList (coordinateWords D W (code p.1))) = table.map fun p => results p.2) :
    ∀ p ∈ table, ∀ s : State, (s.strict = false ∨ ¬ OutOfDomain i s) → decoderCode i s = code p.1 →
      Succeeds i s (results p.2).r0 (results p.2).r1 (results p.2).r2 (results p.2).r3 := fun p hp _ h hcode =>
  succeeds_decoder hi h hcode (List.map_inj_left.mp htable p hp)

end Decoder

theorem exec_encoder {i : Instr} {W : Nat} (hi : (i, W) ∈ encoders) {s : State} {vs : List Word}
    (hs : s.strict = false) (hvs : operandValues i s = vs) : exec i s = .next (s.succeed (codeResults W vs)) := by
  obtain ⟨-, hres, -⟩ := encoder_spec hi
  rw [exec_of_inside (.inl hs), hres, hvs]

end Sys2Proof.Machine
end

section
/-! SUPPORT. The rules of DEC2, DEC3 and DEC4 (43_morton_decode.md rules R141 to R145). -/

namespace Sys2Proof.Machine

/-- DEC2 has no strict check: every code is in its domain (43_morton_decode.md rule R141). -/
theorem succeeds_dec2 {s : State} {n : Nat} (hcode : s.code128.toNat = n) :
    Succeeds .dec2 s (coordinateWord 2 64 n 0) (coordinateWord 2 64 n 1) 0#64 0#64 :=
  have hi : (Instr.dec2, 2, 64) ∈ decoders := by decide
  succeeds_decoder hi (.inr not_false) hcode rfl

/-- Bit `i` of a coordinate of DEC2 is bit `d + 2i` of the code. -/
theorem getLsbD_coordinateWord_code128 (s : State) {d i j : Nat} (hj : d + i * 2 = j) (hi : i < 64) :
    (coordinateWord 2 64 s.code128.toNat d).getLsbD i = (s.opb ++ s.opa).getLsbD j := by
  rw [getLsbD_coordinateWord le_rfl (by decide), decide_eq_true hi, Bool.true_and, BitVec.testBit_toNat, hj]
  rfl

/-- The low half of DEC2's code is OPA. -/
theorem getLsbD_coordinateWord_opa (s : State) {d i j : Nat} (hj : d + i * 2 = j) (hlow : j < 64) :
    (coordinateWord 2 64 s.code128.toNat d).getLsbD i = s.opa.getLsbD j := by
  rw [getLsbD_coordinateWord_code128 s hj (by omega), BitVec.getLsbD_append, if_pos hlow]

/-- The high half of DEC2's code is OPB. -/
theorem getLsbD_coordinateWord_opb (s : State) {d i j : Nat} (hj : d + i * 2 = 64 + j) (hi : i < 64) :
    (coordinateWord 2 64 s.code128.toNat d).getLsbD i = s.opb.getLsbD j := by
  rw [getLsbD_coordinateWord_code128 s hj hi, BitVec.getLsbD_append]
  simp

/-- Settles O55: every number of chunks from the bound up gives the two gatherings, whose words DEC2 leaves. -/
theorem dec2ClosedForm : Obligations.Dec2ClosedForm := by
  unfold Obligations.Dec2ClosedForm
  refine ⟨dec2Coordinates_eq_coordinates, fun _ _ => dec2Loop_eq_dec2Coordinates,
    fun s => ⟨_, _, succeeds_dec2 rfl, toNat_coordinateWord le_rfl 2 _ 0, toNat_coordinateWord le_rfl 2 _ 1,
      fun i hi => ⟨?_, ?_⟩⟩⟩
  · exact getLsbD_coordinateWord_code128 s (by omega) hi
  · exact getLsbD_coordinateWord_code128 s (by omega) hi

/-- DEC2 on the results of an ENC2 gives the operands of the ENC2 (43_morton_decode.md rule R145). -/
theorem succeeds_dec2_of_codeResults {u : State} {a b : Word} (ha : u.opa = (codeResults 64 [a, b]).r0)
    (hb : u.opb = (codeResults 64 [a, b]).r1) : Succeeds .dec2 u a b 0#64 0#64 := by
  have hcode : u.code128.toNat = codeOf 64 [a, b] := by
    rw [State.code128, ha, hb]
    exact toNat_codeResults le_rfl
  have hsucc := succeeds_dec2 hcode
  rwa [coordinateWord_codeOf_eq 2 rfl (by decide), coordinateWord_codeOf_eq 2 rfl (by decide)] at hsucc

/-- Settles O24: the bits of the two halves of the code, the round trip with ENC2, and the listed values by
evaluation. -/
theorem dec2SplitsA128BitCode : Obligations.Dec2SplitsA128BitCode := by
  unfold Obligations.Dec2SplitsA128BitCode
  have hdec : (Instr.dec2, 2, 64) ∈ decoders := by decide
  refine ⟨decode_encode .dec2, fun s => ⟨_, _, succeeds_dec2 rfl, fun i hi => ⟨?_, ?_, ?_, ?_⟩⟩,
    dec2Iterations_le_four, by decide, by decide,
    fun s => ⟨_, _, succeeds_enc2 s, fun u => succeeds_dec2_of_codeResults⟩, fun p hp s ha hb => ?_⟩
  · exact getLsbD_coordinateWord_opa s (by omega) (by omega)
  · exact getLsbD_coordinateWord_opb s (by omega) (by omega)
  · exact getLsbD_coordinateWord_opa s (by omega) (by omega)
  · exact getLsbD_coordinateWord_opb s (by omega) (by omega)
  · exact succeeds_decoder_of_table hdec (fun v => (v.2 ++ v.1).toNat) (fun r => ⟨r.1, r.2, 0#64, 0#64⟩) (by decide)
      p hp s (.inr not_false) (by rw [← ha, ← hb]; rfl)

/-- Settles O25: the bits of the coordinates, the strict check, and the listed values by evaluation. -/
theorem dec3SplitsAThirtyBitCode : Obligations.Dec3SplitsAThirtyBitCode := by
  unfold Obligations.Dec3SplitsAThirtyBitCode
  have hi : (Instr.dec3, 3, 10) ∈ decoders := by decide
  have hbits := coordinateBits_coordinateWord (show 10 ≤ 64 by decide) (show 1 ≤ 3 by decide)
  exact ⟨decode_encode .dec3,
    fun s h => ⟨_, _, _, succeeds_decoder hi (h.imp_right Nat.not_le.mpr) rfl rfl,
      hbits 0 s.opa, hbits 1 s.opa, hbits 2 s.opa⟩,
    fun _ hs h => raisesDomain_of_outside hs h,
    fun p hp s hs ha => succeeds_decoder_of_table hi BitVec.toNat (fun r => ⟨r.1, r.2.1, r.2.2, 0#64⟩) (by decide)
      p hp s (.inl hs) (congrArg BitVec.toNat ha)⟩

/-- Settles O26, as for DEC3, with the four coordinates of 16 bits of rule R143 and no strict check. -/
theorem dec4SplitsASixtyFourBitCode : Obligations.Dec4SplitsASixtyFourBitCode := by
  unfold Obligations.Dec4SplitsASixtyFourBitCode
  have hi : (Instr.dec4, 4, 16) ∈ decoders := by decide
  have hbits := coordinateBits_coordinateWord (show 16 ≤ 64 by decide) (show 1 ≤ 4 by decide)
  exact ⟨decode_encode .dec4,
    fun s => ⟨_, _, _, _, succeeds_decoder hi (.inr not_false) rfl rfl,
      hbits 0 s.opa, hbits 1 s.opa, hbits 2 s.opa, hbits 3 s.opa⟩,
    fun p hp s ha => succeeds_decoder_of_table hi BitVec.toNat (fun r => ⟨r.1, r.2.1, r.2.2.1, r.2.2.2⟩) (by decide)
      p hp s (.inr not_false) (congrArg BitVec.toNat ha)⟩

theorem eq_of_append_eq {a b c d : Word} (h : a ++ b = c ++ d) : b = d ∧ a = c :=
  ⟨by rw [← BitVec.extractLsb'_append_eq_right (a := a) (b := b), h, BitVec.extractLsb'_append_eq_right],
    by rw [← BitVec.extractLsb'_append_eq_left (a := a) (b := b), h, BitVec.extractLsb'_append_eq_left]⟩

/-- ENC2 on the coordinates of a code gives the code. -/
theorem codeResults_coordinateWords_code128 (s : State) :
    (codeResults 64 (coordinateWords 2 64 s.code128.toNat)).r0 = s.opa ∧
    (codeResults 64 (coordinateWords 2 64 s.code128.toNat)).r1 = s.opb := by
  refine eq_of_append_eq (BitVec.eq_of_toNat_eq ?_)
  rw [toNat_codeResults le_rfl, codeOf_coordinateWords le_rfl (by decide)]
  exact Nat.mod_eq_of_lt s.code128.isLt

/-- A host that loads operands after a successful command leaves STRICT as it was. Stated for any results and operands,
so that no proof compares the registers before and after with each other. -/
theorem strict_of_loaded {s : State} (hs : s.strict = false) {r : Results} {a b c d : Word} :
    ({ s.succeed r with opa := a, opb := b, opc := c, opd := d } : State).strict = false :=
  hs

/-- Settles O50: each command runs on the results of the other, and words and codes undo each other. -/
theorem encodeDecodeRoundTrip : Obligations.EncodeDecodeRoundTrip := by
  unfold Obligations.EncodeDecodeRoundTrip
  intro s hs
  have he2 : (Instr.enc2, 64) ∈ encoders := by decide
  have he3 : (Instr.enc3, 10) ∈ encoders := by decide
  have he4 : (Instr.enc4, 16) ∈ encoders := by decide
  have hd2 : (Instr.dec2, 2, 64) ∈ decoders := by decide
  have hd3 : (Instr.dec3, 3, 10) ∈ decoders := by decide
  have hd4 : (Instr.dec4, 4, 16) ∈ decoders := by decide
  refine ⟨?_, ?_, ?_, ?_, ?_, ?_⟩
  · exact ⟨_, _, exec_encoder he2 hs (operandValues_enc2 s),
      exec_decoder hd2 (strict_of_loaded hs) (toNat_codeResults le_rfl),
      coordinateWord_codeOf_eq 2 rfl (by decide), coordinateWord_codeOf_eq 2 rfl (by decide)⟩
  · have hword := fun d => toNat_coordinateWord_codeOf (show 10 ≤ 64 by decide) (vs := [s.opa, s.opb, s.opc]) 3
      (d := d) rfl
    have h0 := hword 0 (by decide)
    have h1 := hword 1 (by decide)
    have h2 := hword 2 (by decide)
    exact ⟨_, _, exec_encoder he3 hs (operandValues_enc3 s),
      exec_decoder hd3 (strict_of_loaded hs) (toNat_codeResults_r0 3 rfl (by decide)),
      h0, h1, h2, and_congr (eq_iff_lt_of_toNat_eq_mod h0)
        (and_congr (eq_iff_lt_of_toNat_eq_mod h1) (eq_iff_lt_of_toNat_eq_mod h2))⟩
  · have hword := fun d => toNat_coordinateWord_codeOf (show 16 ≤ 64 by decide)
      (vs := [s.opa, s.opb, s.opc, s.opd]) 4 (d := d) rfl
    have h0 := hword 0 (by decide)
    have h1 := hword 1 (by decide)
    have h2 := hword 2 (by decide)
    have h3 := hword 3 (by decide)
    exact ⟨_, _, exec_encoder he4 hs (operandValues_enc4 s),
      exec_decoder hd4 (strict_of_loaded hs) (toNat_codeResults_r0 4 rfl (by decide)),
      h0, h1, h2, h3, and_congr (eq_iff_lt_of_toNat_eq_mod h0) (and_congr (eq_iff_lt_of_toNat_eq_mod h1)
        (and_congr (eq_iff_lt_of_toNat_eq_mod h2) (eq_iff_lt_of_toNat_eq_mod h3)))⟩
  · exact ⟨_, _, exec_decoder hd2 hs rfl, exec_encoder he2 (strict_of_loaded hs) rfl,
      codeResults_coordinateWords_code128 s⟩
  · exact ⟨_, _, exec_decoder hd3 hs rfl, exec_encoder he3 (strict_of_loaded hs) rfl,
      toNat_codeResults_coordinateWords_r0 (D := 3) (W := 10) (by decide) (by decide) s.opa.toNat⟩
  · have hcode := toNat_codeResults_coordinateWords_r0 (show 1 ≤ 4 by decide) (show 16 * 4 ≤ 64 by decide) s.opa.toNat
    exact ⟨_, _, exec_decoder hd4 hs rfl, exec_encoder he4 (strict_of_loaded hs) rfl,
      BitVec.eq_of_toNat_eq (hcode.trans (Nat.mod_eq_of_lt s.opa.isLt))⟩

end Sys2Proof.Machine
end

section
/-! SUPPORT. Errors (60_exceptions.md rules R162 to R165): which one a command word raises, and that it writes STATUS alone;
so the results stay zero until a command succeeds. -/

namespace Sys2Proof.Machine

/-- Settles O6: the write puts the word in CMD, and executing a word of no command raises ILLEGAL_CMD. -/
theorem illegalWordRaisesIllegalCmd : Obligations.IllegalWordRaisesIllegalCmd := by
  unfold Obligations.IllegalWordRaisesIllegalCmd
  intro s w rest hport hill
  exact ⟨_, (step_writeAccess_cmd hport).trans (executeCommand_of_illegal hill _),
    State.raiseError_illegalCmd_statusWord _, rfl⟩

/-- The results of a command are fixed by its operands, not by STRICT (60_exceptions.md rule R163). -/
theorem commandResults_strict (i : Instr) (s : State) (b : Bool) :
    commandResults i { s with strict := b } = commandResults i s := by
  cases i <;> rfl

/-- Exec gives one next state, so the results a command completes with are the ones its body computes. -/
theorem Succeeds.results_eq {i : Instr} {s : State} {r0 r1 r2 r3 : Word} (h : Succeeds i s r0 r1 r2 r3)
    (hin : s.strict = false ∨ ¬ OutOfDomain i s) : commandResults i s = ⟨r0, r1, r2, r3⟩ := by
  obtain ⟨t, hexec, ht, -⟩ := h
  cases (exec_of_inside hin).symm.trans hexec
  simp only [State.succeed, State.mk.injEq, true_and] at ht
  obtain ⟨h0, h1, h2, h3, -⟩ := ht
  rw [← h0, ← h1, ← h2, ← h3]

/-- Settles O7: a command reads STRICT in its check alone, and the check is the table of the rule. -/
theorem domainErrorsFollowTheTable : Obligations.DomainErrorsFollowTheTable := by
  unfold Obligations.DomainErrorsFollowTheTable
  intro i s
  refine ⟨raisesDomain_of_outside, fun hin => ⟨_, _, _, _, succeeds_of_inside hin⟩, fun _ hin r0 r1 r2 r3 hlax => ?_⟩
  have hresults : commandResults i s = ⟨r0, r1, r2, r3⟩ := by
    rw [← commandResults_strict i s false]
    exact hlax.results_eq (.inl rfl)
  have hstrict := succeeds_of_inside (i := i) (s := s) (.inr hin)
  rwa [hresults] at hstrict

/-- STATUS shows no success: no command yet, or an error (10_state.md rules R25 and R26). -/
def ShowsNoSuccess (s : State) : Prop := s.done = false ∨ s.err = true

/-- The four result registers hold zero. -/
def ResultsZero (s : State) : Prop := s.res0 = 0#64 ∧ s.res1 = 0#64 ∧ s.res2 = 0#64 ∧ s.res3 = 0#64

theorem ResultsZero.of_sameOutcome {s t : State} (hs : ResultsZero s) (h : SameOutcome s t) : ResultsZero t := by
  rwa [ResultsZero, h.res0, h.res1, h.res2, h.res3]

/-- A command that succeeds shows it in STATUS; one that does not keeps the results. -/
theorem ResultsZero.of_complete {s : State} {b : Body} (hs : ResultsZero s) (hno : ShowsNoSuccess (s.complete b)) :
    ResultsZero (s.complete b) := by
  cases b with
  | ok r => simp [ShowsNoSuccess] at hno
  | error e => exact hs

/-- A step after which STATUS shows no success keeps zero results. -/
theorem ResultsZero.of_step {s t : State} (hs : ResultsZero s) (h : step s = .next t) (hno : ShowsNoSuccess t) :
    ResultsZero t := by
  rcases step_cases s with ⟨-, hidle⟩ | ⟨a, rest, hport, -⟩ | ⟨l, rest, -, hreset⟩
  · cases hidle.symm.trans h
    exact hs
  · rcases step_access_cases hport with ⟨w, -, hexec⟩ | ⟨u, hnext, hsame, -⟩
    · rw [h, executeCommand_eq_complete] at hexec
      cases hexec
      have hwritten : ResultsZero (({ s with port := rest }.answer .normal).store .cmd w) := hs
      exact hwritten.of_complete hno
    · cases hnext.symm.trans h
      exact hs.of_sameOutcome hsame
  · cases hreset.symm.trans h
    exact ⟨rfl, rfl, rfl, rfl⟩

/-- A run whose states show no success keeps zero results. -/
theorem ResultsZero.of_run {n : Nat} {s t : State} (hs : ResultsZero s) (h : core.run n s = .next t)
    (hno : ∀ k (u : State), k ≤ n → core.run k s = .next u → ShowsNoSuccess u) : ResultsZero t := by
  induction n generalizing s with
  | zero =>
    cases (core_run_zero s).symm.trans h
    exact hs
  | succ n ih =>
    obtain ⟨v, hv⟩ := step_total s
    have hrun : ∀ k, core.run (k + 1) s = core.run k v := fun k => core_run_of_step k s v hv
    have hfirst : ShowsNoSuccess v := hno 1 v (by omega) (hrun 0)
    exact ih (hs.of_step hv hfirst) ((hrun n).symm.trans h)
      fun k u hk hu => hno (k + 1) u (by omega) ((hrun k).trans hu)

/-- Settles O11: an error is `raiseError` of the state in which CMD holds the word; and zero results last until a success,
by induction on the run. -/
theorem errorsArePrecise : Obligations.ErrorsArePrecise := by
  unfold Obligations.ErrorsArePrecise
  refine ⟨fun s t w rest hport h herr => ?_, fun events n t h hno => ?_⟩
  · rw [step_writeAccess_cmd hport, executeCommand_eq_complete] at h
    cases h
    generalize wordBody w _ = b at herr ⊢
    cases b with
    | ok r => simp at herr
    | error e => rfl
  · have hzero : ResultsZero { State.reset with port := events } := ⟨rfl, rfl, rfl, rfl⟩
    exact hzero.of_run h hno

end Sys2Proof.Machine
end

section
/-! SUPPORT. Reset (70_reset_and_hazards.md rules R180 to R182): what every register holds after it, what an access before
it leaves, and what a command computes from the operands it leaves. -/

namespace Sys2Proof.Machine

/-- Every register reads as zero after reset (70_reset_and_hazards.md rule R180). -/
theorem resetWith_reg (rest : List Event) (r : Reg) : (resetWith rest).reg r = 0#64 := by
  cases r with
  | status =>
    have hstatus : State.reset.statusWord = 0#64 := by decide
    exact hstatus
  | _ => rfl

/-- Settles O39: a reset event leaves `resetWith`, in which every register is zero. -/
theorem resetClearsEveryRegister : Obligations.ResetClearsEveryRegister := by
  unfold Obligations.ResetClearsEveryRegister
  refine ⟨⟨rfl, rfl, rfl, rfl, rfl, rfl, rfl, rfl, rfl, rfl, rfl, rfl, rfl⟩, resetWith_reg [], fun s l rest hport => ?_⟩
  exact ⟨_, step_reset hport, rfl, resetWith_reg rest⟩

/-- Settles O42: reset is the reset event with nothing left at the port. -/
theorem invAfterReset : Obligations.InvAfterReset :=
  resetWith_inv []

/-- Settles O40: a reset reads nothing of the state before it but what is still to come, and an access leaves that as it
was. -/
theorem resetAbandonsAccesses : Obligations.ResetAbandonsAccesses := by
  unfold Obligations.ResetAbandonsAccesses
  refine ⟨fun s u l l' rest hs hu => ⟨_, step_reset hs, step_reset hu, rfl⟩, fun s a l rest => ?_⟩
  obtain ⟨t, haccess⟩ := performAccess_port a s
  have hstep : step { s with port := .access a :: .reset l :: rest } = .next { t with port := .reset l :: rest } :=
    (step_access rfl).trans (haccess (.reset l :: rest))
  rw [core_run_of_step _ _ _ hstep, core_run_one, core_run_one, step_reset rfl, step_reset rfl]

theorem interleave_of_zeros (W D : Nat) : interleave W (List.replicate D 0) = 0 := by
  have hlanes : ∀ K d, lanesFrom K W d (List.replicate D 0) = 0 := by
    intro K
    induction D with
    | zero => exact fun _ => rfl
    | succ D ih =>
      intro d
      rw [List.replicate_succ, lanesFrom, spread_of_zero, Nat.zero_shiftLeft, ih, Nat.or_zero]
  exact hlanes _ 0

theorem coordinate_of_zero (D W d : Nat) : coordinate D W 0 d = 0 := by
  rw [coordinate, Nat.zero_shiftRight, gather_of_zero]

/-- Every command maps zero operands to zero results: the spreaders, gatherers, encoders and decoders move bits and set
none of their own. -/
theorem commandResults_of_zero {s : State} (ha : s.opa = 0#64) (hb : s.opb = 0#64) (hc : s.opc = 0#64)
    (hd : s.opd = 0#64) (i : Instr) : commandResults i s = ⟨0#64, 0#64, 0#64, 0#64⟩ := by
  cases i with
  | spread1 | spread2 | spread3 => rw [commandResults, ha, BitVec.toNat_zero, spread_of_zero]; rfl
  | gather1 | gather2 | gather3 => rw [commandResults, ha, BitVec.toNat_zero, gather_of_zero]; rfl
  | enc2 =>
    have hcode := (enc2Code_eq_interleave 0#64 0#64).trans (interleave_of_zeros 64 2)
    rw [commandResults, ha, hb, hcode]
    rfl
  | enc3 =>
    rw [commandResults, ha, hb, hc]
    exact congrArg (fun n => Results.one (Word.ofExact n)) (interleave_of_zeros 10 3)
  | enc4 =>
    rw [commandResults, ha, hb, hc, hd]
    exact congrArg (fun n => Results.one (Word.ofExact n)) (interleave_of_zeros 16 4)
  | dec2 =>
    have hcode : s.code128 = 0#128 := by
      rw [State.code128, ha, hb]
      rfl
    rw [commandResults, dec2Coordinates_eq_coordinates, hcode, BitVec.toNat_zero, coordinate_of_zero,
      coordinate_of_zero]
  | dec3 | dec4 => simp only [commandResults, ha, BitVec.toNat_zero, coordinate_of_zero]

/-- Settles O41: after reset STRICT is clear and the operands are zero, so the command completes with zero results. -/
theorem firstCommandAfterResetGivesZero : Obligations.FirstCommandAfterResetGivesZero := by
  unfold Obligations.FirstCommandAfterResetGivesZero
  intro i
  rw [step_withFetchWord, tableWord_toNat, executeCommand_of_decode_ok (decode_encode i), exec_of_inside (.inl rfl),
    commandResults_of_zero rfl rfl rfl rfl]
  rfl

end Sys2Proof.Machine
end

section
/-! SUPPORT. Hazards and completion (70_reset_and_hazards.md rules R184 and R186): a write after a command keeps its
outcome, and every event takes one step. -/

namespace Sys2Proof.Machine

/-- Settles O37: the second write stores to a register that is none of the command's outputs. -/
theorem noHazardAfterACommand : Obligations.NoHazardAfterACommand := by
  unfold Obligations.NoHazardAfterACommand
  intro s w v r rest hr hport
  obtain ⟨t, hcommand, htport, hfull, -, -⟩ := step_writeAccess_reg hport
  have hcmd : t.cmd = w := hfull (by decide)
  have hwrite := step_writeAccess_store htport hr
  have hsame := sameOutcome_store (sameOutcome_answer t rest .normal) hr v
  have hrun := (core_run_of_step 1 _ _ hcommand).trans ((core_run_one t).trans hwrite)
  exact ⟨t, _, hcommand, hrun, hsame.statusWord, hsame.cmd.trans hcmd, hsame.res0, hsame.res1, hsame.res2, hsame.res3⟩

/-- A step takes the first event, if any, from the port (20_memory.md rule R48). -/
theorem step_takes_event (s : State) : ∃ t : State, step s = .next t ∧ t.port = s.port.tail := by
  cases hport : s.port with
  | nil => exact ⟨s, nothingHappensWithoutTheHost s hport, hport⟩
  | cons e rest =>
    obtain ⟨t, hevent⟩ := performEvent_port e s
    refine ⟨{ t with port := rest }, ?_, rfl⟩
    rw [step, hport]
    exact hevent rest

/-- As many steps as there are events empty the port. -/
theorem core_run_takes_all_events (s : State) : ∃ t : State, core.run s.port.length s = .next t ∧ t.port = [] := by
  obtain ⟨hparts, -⟩ := portOrderIsEffectOrder
  obtain ⟨t, hrun, htport, -⟩ := hparts s s.port []
  exact ⟨t, hrun, htport⟩

/-- Settles O44: one step for each event, and the bounds of the two chunk loops. -/
theorem everyAccessCompletes : Obligations.EveryAccessCompletes :=
  ⟨step_takes_event, core_run_takes_all_events, enc2Iterations_le_four, dec2Iterations_le_four⟩

end Sys2Proof.Machine
end
